-- ==== Sys2Proof/Word.lean ====
section
/-! DEFINITION. The machine is decimal (00 R7): its values are integers and its storage unit is the cell. -/

namespace Sys2Proof

/-- The three-digit domain `0 .. 999` of every value of the machine: the accumulator, data contents and queue elements
(00 R4, 10 R20). It is an invariant that launches ensure and steps keep (10 R22), not a type: the engine itself performs
no range check, so a value is an integer. -/
abbrev InThreeDigits (v : Int) : Prop := 0 ≤ v ∧ v ≤ 999

/-- A storage cell: exactly one of a data cell `D(v)` and an instruction cell `I(o, a)` (40 R110). The tag is
architectural state (10 R29, R33). -/
inductive MemCell where
  /-- `D(v)`: pure data; it has no opcode and no address (40 R115). -/
  | data (content : Int)
  /-- `I(o, a)`: an instruction cell (domain `o ≤ 9`, `a ≤ 99`: `MemCell.wf`). -/
  | instr (opcode address : Nat)
deriving DecidableEq, Repr

end Sys2Proof
end

