-- ==== Sys2Proof/Config.lean ====
section
/-! DEFINITION. The parameters of the hardware: the fixed ones (00 R4) and those the spec decides (00 R5). -/

namespace Sys2Proof.Config

/-- `MEMSIZE`: the number of cells; valid addresses are `0 .. 99` (00 R4). -/
@[simp] abbrev memSize : Nat := 100

/-- `MODULUS`: ADD and SUB reduce modulo this (00 R4). -/
@[simp] abbrev modulus : Int := 1000

/-- `CONTENT_MAX` (00 R4): the largest content of a cell, and the upper bound of the overflow test (45 R230). -/
@[simp] abbrev contentMax : Int := 999

/-- `OPCODE_MAX` (00 R4). -/
@[simp] abbrev opcodeMax : Nat := 9

/-- `ADDRESS_MAX` (00 R4, R6). -/
@[simp] abbrev addressMax : Nat := 99

/-- `INIT_CELL`, the content of a cell nothing has written: `D(0)`. DESIGN CHOICE of the spec (92 D3; log entry 2);
unsafe: the source gives no contents. -/
def initCell : MemCell := .data 0

/-- `RESET_PC`. DESIGN CHOICE of the spec (92 D2; log entry 1); unsafe. -/
def resetPc : Nat := 0

/-- `RESET_ACC`. DESIGN CHOICE of the spec (92 D2; log entry 1); unsafe. -/
def resetAcc : Int := 0

/-- `RESET_OVF`. DESIGN CHOICE of the spec (92 D2; log entry 1); unsafe. -/
def resetOvf : Bool := false

end Sys2Proof.Config
end

