-- ==== Sys2Proof/Syntax.lean ====
section
/-! DEFINITION. The instructions: one constructor per row of spec/opcode_table.json. -/

namespace Sys2Proof

/-- What a fetched cell asks the engine to do (30 R84). Every field is kept as the cell holds it, also where the
instruction ignores it; `Instr.wf` says which terms are instructions. -/
inductive Instr where
  /-- `HLT`, `I(0, a)`: halt; the address field is ignored (30 R88). -/
  | hlt (addr : Nat)
  /-- `ADD`, `I(1, a)`. -/
  | add (addr : Nat)
  /-- `SUB`, `I(2, a)`. -/
  | sub (addr : Nat)
  /-- `STA`, `I(3, a)`. -/
  | sta (addr : Nat)
  /-- `LDA`, `I(5, a)`. -/
  | lda (addr : Nat)
  /-- `BRA`, `I(6, a)`. -/
  | bra (addr : Nat)
  /-- `BRZ`, `I(7, a)`. -/
  | brz (addr : Nat)
  /-- `BRP`, `I(8, a)`. -/
  | brp (addr : Nat)
  /-- `INP`, `I(9, 1)`. -/
  | inp
  /-- `OUT`, `I(9, 2)`. -/
  | out
  /-- The illegal group `I(4, a)` (30 R85). -/
  | illegalOp4 (addr : Nat)
  /-- The illegal group `I(9, a)` with `a` neither 1 nor 2 (30 R86). -/
  | illegalOp9 (addr : Nat)
  /-- A data cell `D(v)`, what the directive `DAT` makes: no instruction, but a cell a program can fetch (30 R87). -/
  | dat (content : Int)
deriving DecidableEq, Repr

end Sys2Proof
end

