-- ==== Sys2Proof/WellFormed.lean ====
section
/-! DEFINITION. Which cells and which instruction terms the spec admits (40 R111, 30 R84). -/

namespace Sys2Proof

/-- An address field: two decimal digits (30 R80). -/
def addressOk (a : Nat) : Bool := decide (a ≤ Config.addressMax)

/-- The domain of a cell: `D(v)` with `v` in `0 .. 999`, `I(o, a)` with `o` in `0 .. 9` and `a` in `0 .. 99`
(40 R111). -/
def MemCell.wf : MemCell → Bool
  | .data v => decide (InThreeDigits v)
  | .instr o a => decide (o ≤ Config.opcodeMax) && addressOk a

/-- The well-formed instruction terms: those that stand for exactly one well-formed cell. The address of the second
illegal group excludes the two function selectors (30 R86). -/
def Instr.wf : Instr → Bool
  | .hlt a => addressOk a
  | .add a => addressOk a
  | .sub a => addressOk a
  | .sta a => addressOk a
  | .lda a => addressOk a
  | .bra a => addressOk a
  | .brz a => addressOk a
  | .brp a => addressOk a
  | .inp => true
  | .out => true
  | .illegalOp4 a => addressOk a
  | .illegalOp9 a => addressOk a && (a != 1) && (a != 2)
  | .dat v => decide (InThreeDigits v)

end Sys2Proof
end

