-- ==== Sys2Proof/Decode.lean ====
section
/-! DEFINITION. From a cell to an instruction and back (30 R80 to R88), and the numbering of cells as words that the
host's questions use. -/

namespace Sys2Proof

/-- Why a cell names no instruction. -/
inductive CellReject where
  /-- An instruction cell whose opcode is no decimal digit: the "other" row of the dispatch table (43 R195, R196).
  No reachable cell holds one (40 R112). -/
  | opcodeHasNoRow (opcode address : Nat)
deriving DecidableEq, Repr

/-- Why a word names no instruction. -/
inductive WordReject where
  /-- The cell it names is rejected. -/
  | cell (r : CellReject)
  /-- The numbering of cells gives it to no cell (log entry 3). -/
  | wordNamesNoCell (word : Nat)
deriving DecidableEq, Repr

/-- The opcode map (30 R84). The engine decodes the stored fields of an instruction cell, never the packed content
(30 R82); a data cell is told apart by its tag alone (30 R87). The address field is not judged here: the instruction
that uses it checks it (20 R54). -/
def decodeCell : MemCell → Except CellReject Instr
  | .data v => .ok (.dat v)
  | .instr 0 a => .ok (.hlt a)
  | .instr 1 a => .ok (.add a)
  | .instr 2 a => .ok (.sub a)
  | .instr 3 a => .ok (.sta a)
  | .instr 4 a => .ok (.illegalOp4 a)
  | .instr 5 a => .ok (.lda a)
  | .instr 6 a => .ok (.bra a)
  | .instr 7 a => .ok (.brz a)
  | .instr 8 a => .ok (.brp a)
  | .instr 9 1 => .ok .inp
  | .instr 9 2 => .ok .out
  | .instr 9 a => .ok (.illegalOp9 a)
  | .instr o a => .error (.opcodeHasNoRow o a)

/-- The cell that holds an instruction (30 R84, R87). -/
def encodeCell : Instr → MemCell
  | .hlt a => .instr 0 a
  | .add a => .instr 1 a
  | .sub a => .instr 2 a
  | .sta a => .instr 3 a
  | .lda a => .instr 5 a
  | .bra a => .instr 6 a
  | .brz a => .instr 7 a
  | .brp a => .instr 8 a
  | .inp => .instr 9 1
  | .out => .instr 9 2
  | .illegalOp4 a => .instr 4 a
  | .illegalOp9 a => .instr 9 a
  | .dat v => .data v

/-- Packing: `opcode*100 + address` (30 R81). -/
def pack (opcode address : Nat) : Nat := opcode * 100 + address

/-- Unpacking: `(c div 100, c mod 100)` (30 R81). -/
def unpack (c : Nat) : Nat × Nat := (c / 100, c % 100)

/-- DESIGN CHOICE (log entry 3; safe): cells numbered as words, for the host's questions alone. The three digits of
the packed form come as the table gives them; a fourth decimal digit is the tag, 0 for an instruction cell and 1 for a
data cell. The spec leaves `CELL_ENCODING` open (92 D20) and no rule depends on it. -/
def cellOfWord (w : Nat) : Option MemCell :=
  if w < 1000 then some (.instr (unpack w).1 (unpack w).2)
  else if w < 2000 then some (.data ((w - 1000 : Nat) : Int))
  else none

/-- The word of a well-formed cell, by the numbering of `cellOfWord`. -/
def wordOfCell : MemCell → Nat
  | .instr o a => pack o a
  | .data v => 1000 + v.toNat

/-- Decoding a word: total, and refusing by name. -/
def decodeWord (w : Nat) : Except WordReject Instr :=
  match cellOfWord w with
  | some c => (decodeCell c).mapError .cell
  | none => .error (.wordNamesNoCell w)

/-- The word of a well-formed instruction. -/
def encodeWord (i : Instr) : Nat := wordOfCell (encodeCell i)

/-- The instruction the decoder reads from the word `w`, whose bits from `nbits` up are 0. -/
def decodeTableWord (nbits w : Nat) : Option Instr :=
  match decodeWord (w % 2 ^ nbits) with
  | .ok i => some i
  | .error _ => none

end Sys2Proof
end

