-- ==== Sys2Proof/Machine/State.lean ====
section
/-! DEFINITION. The complete state of one machine (10 R20), its value after reset (10 R34), and the ways an operation
can stop. -/

namespace Sys2Proof.Machine

/-- Memory: `(address, cell)` pairs in one canonical form (`Memory.wf`); an address not listed reads as
`Config.initCell`. The unit is the whole cell (20 R51). -/
abbrev Memory := List (Nat × MemCell)

/-- A FIFO queue of integers, head first, without bound (41 R130, R135). -/
abbrev Queue := List Int

/-- The seven state elements of one machine, and nothing else (10 R20). -/
structure State where
  /-- The 100 cells (10 R29). -/
  mem : Memory
  /-- The accumulator (10 R21). -/
  acc : Int
  /-- The program counter (10 R23): `0 .. 100`, and 100 is legal to hold. -/
  pc : Nat
  /-- The overflow flag (10 R25). -/
  ovf : Bool
  /-- The halted flag: false is Running, true is Halted (10 R27). -/
  halted : Bool
  /-- The input queue (10 R31). -/
  inq : Queue
  /-- The output queue (10 R31). -/
  outq : Queue
deriving DecidableEq, Repr

/-- A machine right after its creation (10 R34, 70 R340): Running by the source; the other values are the spec's
choices (DESIGN CHOICE, log entries 1 and 2; unsafe). -/
def State.reset : State where
  mem := []
  acc := Config.resetAcc
  pc := Config.resetPc
  ovf := Config.resetOvf
  halted := false
  inq := []
  outq := []

/-- The eight failure kinds, a closed enumeration (60 R300, R310). -/
inductive FailureKind where
  /-- A cell construction with a bad argument (60 R306). -/
  | invalidCell
  /-- A line with a token count other than one or two at the encoding step (60 R307). -/
  | invalidInstructionFormat
  /-- No table entry; swallowed by the assembler (60 R308). -/
  | mnemonicNotFound
  /-- An operand neither literal nor label; swallowed by the assembler (60 R308). -/
  | labelNotFound
  /-- `dequeue` of an empty queue (60 R304). -/
  | emptyQueue
  /-- An address outside `[0, memorySize)` (60 R301, R302). -/
  | outOfBounds
  /-- An instruction cell without a row in the dispatch table (60 R305). -/
  | invalidOpcode
  /-- A data cell fetched as an instruction (60 R303). -/
  | halt
deriving DecidableEq, Repr

/-- The failures a cycle can report to the host. A failure ends the run and its outcome is `Fault(K, s')`
(00 R11, 60 R318), so each constructor carries the state `left` behind (60 R309). What else it carries is for
diagnostics (92 D19). -/
inductive Fault where
  /-- Raised by the fetch with pc at 100 or above, which leaves the state unchanged (60 R301), and by the operand
  access of ADD, SUB, STA and LDA (60 R302, unreachable). Safe: the spec's own failure. -/
  | outOfBounds (addr : Nat) (left : State)
  /-- Raised when the fetched cell is a data cell (60 R303); the machine is left halted, with pc advanced by the
  spec's choice (92 D7). Unsafe in `left.pc` alone (log entry 4). -/
  | halt (left : State)
  /-- Raised by the dispatch for opcode 4, for opcode 9 with an address other than 1 or 2, and for an opcode that is
  no digit (60 R305); pc advanced by the spec's choice (92 D6). Unsafe in `left.pc` alone (log entry 4). -/
  | invalidOpcode (opcode addr : Nat) (left : State)
  /-- Raised by INP with an empty input queue (60 R304); pc advanced by the spec's choice (92 D6). Unsafe in
  `left.pc` alone (log entry 4). -/
  | emptyQueue (left : State)
deriving DecidableEq, Repr

/-- Steps the model gives no meaning to. -/
inductive Refusal where
  /-- Raised by no arm of `exec`: every instruction has its meaning. Safe. -/
  | notModelled (mnemonic : String)
deriving DecidableEq, Repr

end Sys2Proof.Machine
end

