-- ==== Sys2Proof/Machine/Cell.lean ====
section
/-! DEFINITION. The Memory Cell's operations (40 R112 to R116). -/

namespace Sys2Proof

/-- Construction from "exactly one" of a raw content and an `(opcode, address)` pair (40 R112). The pair's ranges are
checked; the content's is not (40 R111, 90 C3). -/
def MemCell.construct (content : Option Int) (pair : Option (Int × Int)) : Except Machine.FailureKind MemCell :=
  match content, pair with
  | some _, some _ => .error .invalidCell
  | none, none => .error .invalidCell
  | some v, none => .ok (.data v)
  | none, some (o, a) =>
    if o < 0 ∨ (Config.opcodeMax : Int) < o then .error .invalidCell
    else if a < 0 ∨ (Config.addressMax : Int) < a then .error .invalidCell
    else .ok (.instr o.toNat a.toNat)

/-- The integer a cell presents when read as data, whatever its tag (40 R114). -/
def MemCell.content : MemCell → Int
  | .data v => v
  | .instr o a => (o : Int) * 100 + (a : Int)

/-- The instruction view `(opcode, address)`; absent for a data cell, whatever its content (40 R115). -/
def MemCell.view : MemCell → Option (Nat × Nat)
  | .data _ => none
  | .instr o a => some (o, a)

/-- Assigning raw content: the cell becomes pure data whatever it was (40 R116). It cannot fail. -/
def MemCell.assign (_cell : MemCell) (v : Int) : MemCell := .data v

end Sys2Proof
end

