-- ==== Sys2Proof/Machine/Ops.lean ====
section
/-! DEFINITION. The named operations over memory and registers (00 R10), the fetch (43 R191, R192), and the one
operation that ends a cycle with a failure (60 R314). -/

namespace Sys2Proof.Machine

-- Register writes: the one way each state element changes.

def State.setMem (s : State) (m : Memory) : State := { s with mem := m }
def State.setAcc (s : State) (v : Int) : State := { s with acc := v }
def State.setPc (s : State) (target : Nat) : State := { s with pc := target }
def State.setOvf (s : State) (b : Bool) : State := { s with ovf := b }
def State.setHalted (s : State) (b : Bool) : State := { s with halted := b }
def State.setInq (s : State) (q : Queue) : State := { s with inq := q }
def State.setOutq (s : State) (q : Queue) : State := { s with outq := q }

/-- The cell at an address: the listed one, else `INIT_CELL` (20 R63). -/
def Memory.cellAt : Memory → Nat → MemCell
  | [], _ => Config.initCell
  | (k, c) :: rest, a => if k = a then c else Memory.cellAt rest a

/-- The memory without any entry for an address. -/
def Memory.erase (m : Memory) (a : Nat) : Memory := m.filter fun e => e.1 != a

/-- An entry put before the first larger address. -/
def Memory.insertSorted (a : Nat) (c : MemCell) : Memory → Memory
  | [] => [(a, c)]
  | (k, d) :: rest => if a < k then (a, c) :: (k, d) :: rest else (k, d) :: Memory.insertSorted a c rest

/-- A whole cell replaced (20 R55). Writing `INIT_CELL` removes the entry, so that equal memories are equal lists. -/
def Memory.put (m : Memory) (a : Nat) (c : MemCell) : Memory :=
  if c = Config.initCell then Memory.erase m a else Memory.insertSorted a c (Memory.erase m a)

/-- The addresses of `m` are strictly rising from `lo`. -/
def Memory.risingFrom : Nat → Memory → Bool
  | _, [] => true
  | lo, (k, _) :: rest => decide (lo ≤ k) && Memory.risingFrom (k + 1) rest

/-- The canonical form: addresses strictly rising and below `MEMSIZE`, and no entry equal to what an unlisted address
reads as. -/
def Memory.wf (m : Memory) : Bool :=
  Memory.risingFrom 0 m && m.all fun e => decide (e.1 < Config.memSize) && (e.2 != Config.initCell)

/-- The bound check of every access: the address is within `[0, memorySize)` (20 R54). -/
def inBounds (a : Nat) : Bool := decide (a < Config.memSize)

/-- `MemFetch(a)`: the cell with its tag, or nothing where the access fails with OutOfBounds (00 R10). -/
def memFetch (s : State) (a : Nat) : Option MemCell := if inBounds a then some (Memory.cellAt s.mem a) else none

/-- `MemRead(a, 1)`: the content of the cell, or nothing where the access fails with OutOfBounds (00 R10). -/
def memRead (s : State) (a : Nat) : Option Int := (memFetch s a).map MemCell.content

/-- `MemWrite(a, 1, v)`: the cell becomes `D(v)` whatever it was, or nothing where the access fails with OutOfBounds
(00 R10, 40 R116). -/
def memWrite (s : State) (a : Nat) (v : Int) : Option State :=
  if inBounds a then some (s.setMem (Memory.put s.mem a ((Memory.cellAt s.mem a).assign v))) else none

/-- `raise K`: the operation ends at once with the failure, and the state written before stays written (00 R10). This
is all that "taking an exception" is on this machine: nothing is saved, no mode changes, no handler runs (60 R314), and
there is no return from it (60 R317). -/
def raise (k : State → Fault) (s : State) : Host.Outcome State Fault Refusal := .fault (k s)

/-- The state a failure leaves behind (60 R309). -/
def Fault.left : Fault → State
  | .outOfBounds _ l => l
  | .halt l => l
  | .invalidOpcode _ _ l => l
  | .emptyQueue l => l

/-- The kind of a run-time failure (60 R300). -/
def Fault.kind : Fault → FailureKind
  | .outOfBounds _ _ => .outOfBounds
  | .halt _ => .halt
  | .invalidOpcode _ _ _ => .invalidOpcode
  | .emptyQueue _ => .emptyQueue

/-- The fetch's increment of pc, with no wrap (43 R192). -/
def State.advancePc (s : State) : State := s.setPc (s.pc + 1)

/-- The fetch: read the cell at pc, then increment pc; nothing where the read fails (43 R191, R192). -/
def fetch (s : State) : Option (MemCell × State) := (memFetch s s.pc).map fun c => (c, s.advancePc)

end Sys2Proof.Machine
end

