-- ==== Sys2Proof/Machine/Flags.lean ====
section
/-! DEFINITION. The overflow flag's computation (45 R231), shared by ADD and SUB, and the conditions BRZ and BRP
test. -/

namespace Sys2Proof.Machine

/-- The test ADD and SUB make on the REDUCED result: "result falls outside [0,999]" (45 R231). It never succeeds, and
the spec forbids repairing it. -/
def fallsOutside (r : Int) : Bool := decide (r < 0) || decide (Config.contentMax < r)

/-- The flag is set when the test succeeds and is never cleared (92 D9; log entry 13). -/
def noteOverflow (r : Int) (s : State) : State := if fallsOutside r then s.setOvf true else s

/-- Write-back of ADD and SUB: the result reduced modulo 1000 with the non-negative remainder (00 R8) goes to the
accumulator, then the flag is set on it (45 R230, R232). -/
def accumulate (unreduced : Int) (s : State) : State :=
  noteOverflow (unreduced % Config.modulus) (s.setAcc (unreduced % Config.modulus))

/-- BRZ's condition: `acc = 0 and ovf = false` (47 R251). -/
def zeroCondition (s : State) : Bool := decide (s.acc = 0) && !s.ovf

/-- BRP's condition: `ovf = false`; the accumulator is not inspected (47 R252). -/
def positiveCondition (s : State) : Bool := !s.ovf

end Sys2Proof.Machine
end

