-- ==== Sys2Proof/Machine/Operands.lean ====
section
/-! DEFINITION. The three uses of the address field (30 R83): a direct memory address (read or written), a direct
branch target, and, for opcode 9, a function selector, which the decoder has already resolved. -/

namespace Sys2Proof.Machine

/-- The memory operand of ADD, SUB and LDA: run on with the content at `addr`, or fail with OutOfBounds with only pc
advanced (20 R54, 60 R302). -/
def withOperand (addr : Nat) (s : State) (use : Int → Host.Outcome State Fault Refusal) :
    Host.Outcome State Fault Refusal :=
  match memRead s addr with
  | some v => use v
  | none => raise (.outOfBounds addr) s

/-- The memory destination of STA: the cell becomes `D(v)`, or the store fails with OutOfBounds (46 R240). -/
def storeOperand (addr : Nat) (v : Int) (s : State) : Host.Outcome State Fault Refusal :=
  match memWrite s addr v with
  | some t => .next t
  | none => raise (.outOfBounds addr) s

/-- A branch: pc becomes the target when the condition holds, else it stays the next sequential address. The target
cell is not looked at (47). -/
def branchWhen (taken : Bool) (target : Nat) (s : State) : Host.Outcome State Fault Refusal :=
  .next (if taken then s.setPc target else s)

end Sys2Proof.Machine
end

