-- ==== Sys2Proof/Machine/Arithmetic.lean ====
section
/-! DEFINITION. ADD and SUB (45 R230, R232). -/

namespace Sys2Proof.Machine

/-- ADD: `acc <- (acc + content(mem[addr])) mod 1000` (45 R230). -/
def execAdd (addr : Nat) (s : State) : Host.Outcome State Fault Refusal :=
  withOperand addr s fun v => .next (accumulate (s.acc + v) s)

/-- SUB: `acc <- (acc - content(mem[addr])) mod 1000` (45 R232). -/
def execSub (addr : Nat) (s : State) : Host.Outcome State Fault Refusal :=
  withOperand addr s fun v => .next (accumulate (s.acc - v) s)

end Sys2Proof.Machine
end

