-- ==== Sys2Proof/Machine/Branch.lean ====
section
/-! DEFINITION. BRA, BRZ and BRP (47 R250 to R252). -/

namespace Sys2Proof.Machine

/-- BRA: `pc <- addr` (47 R250). -/
def execBra (addr : Nat) (s : State) : Host.Outcome State Fault Refusal := branchWhen true addr s

/-- BRZ: `pc <- addr` if `acc = 0 and ovf = false` (47 R251). -/
def execBrz (addr : Nat) (s : State) : Host.Outcome State Fault Refusal := branchWhen (zeroCondition s) addr s

/-- BRP: `pc <- addr` if `ovf = false`, as specified: the sign is not inspected (47 R252). -/
def execBrp (addr : Nat) (s : State) : Host.Outcome State Fault Refusal := branchWhen (positiveCondition s) addr s

end Sys2Proof.Machine
end

