-- ==== Sys2Proof/Machine/Halt.lean ====
section
/-! DEFINITION. HLT (44 R220). In every meaning the state is the one after the fetch, so pc is already `p + 1`. -/

namespace Sys2Proof.Machine

/-- HLT: `halted <- true`; the address field is ignored (44 R220, 30 R88). -/
def execHlt (_addr : Nat) (s : State) : Host.Outcome State Fault Refusal := .next (s.setHalted true)

end Sys2Proof.Machine
end

