-- ==== Sys2Proof/Machine/Illegal.lean ====
section
/-! DEFINITION. The cells that are not executable: the illegal opcodes (30 R85, R86) and data cells (30 R87). -/

namespace Sys2Proof.Machine

/-- `I(4, addr)`: fails with InvalidOpcode; the machine is not halted and only pc has changed (43 R196, 60 R305). -/
def execIllegalOp4 (addr : Nat) (s : State) : Host.Outcome State Fault Refusal := raise (.invalidOpcode 4 addr) s

/-- `I(9, addr)` with another address than 1 or 2: fails with InvalidOpcode (43 R196, 92 D8; log entry 6). -/
def execIllegalOp9 (addr : Nat) (s : State) : Host.Outcome State Fault Refusal := raise (.invalidOpcode 9 addr) s

/-- A fetched data cell: `halted <- true`, then the failure Halt, whatever the content (43 R194, 60 R303). -/
def execDat (_content : Int) (s : State) : Host.Outcome State Fault Refusal := raise .halt (s.setHalted true)

/-- An instruction cell the decoder has no row for: the dispatch's "other" row, which fails with InvalidOpcode
(43 R195, R196). -/
def raiseUndecoded (r : CellReject) (s : State) : Host.Outcome State Fault Refusal :=
  match r with
  | .opcodeHasNoRow o a => raise (.invalidOpcode o a) s

end Sys2Proof.Machine
end

