-- ==== Sys2Proof/Machine/Fifo.lean ====
section
/-! DEFINITION. The FIFO queue's three operations (41 R131 to R134). -/

namespace Sys2Proof.Machine

/-- `enqueue(q, v)`: appended at the tail; always succeeds, at any length (41 R131, R135). -/
def enqueue (q : Queue) (v : Int) : Queue := q ++ [v]

/-- `dequeue(q)`: the head and the rest, or the failure EmptyQueue at once: never a wait (41 R132, R133). -/
def dequeue : Queue → Except FailureKind (Int × Queue)
  | [] => .error .emptyQueue
  | v :: rest => .ok (v, rest)

/-- `isEmpty(q)` (41 R134). No instruction uses it. -/
def isEmpty (q : Queue) : Bool := q.isEmpty

end Sys2Proof.Machine
end

