-- ==== Sys2Proof/Machine/InputOutput.lean ====
section
/-! DEFINITION. INP and OUT (48 R260, R261). -/

namespace Sys2Proof.Machine

/-- INP: the head of the input queue goes to the accumulator; on an empty queue the cycle fails with EmptyQueue and
nothing but pc has changed (48 R260). -/
def execInp (s : State) : Host.Outcome State Fault Refusal :=
  match dequeue s.inq with
  | .ok (v, rest) => .next ((s.setInq rest).setAcc v)
  | .error _ => raise .emptyQueue s

/-- OUT: the accumulator is appended to the output queue; it never fails (48 R261). -/
def execOut (s : State) : Host.Outcome State Fault Refusal := .next (s.setOutq (enqueue s.outq s.acc))

end Sys2Proof.Machine
end

