-- ==== Sys2Proof/Machine/LoadStore.lean ====
section
/-! DEFINITION. STA and LDA (46 R240, R241). -/

namespace Sys2Proof.Machine

/-- STA: `mem[addr] <- D(acc)`; the cell becomes a data cell whatever it was (46 R240). -/
def execSta (addr : Nat) (s : State) : Host.Outcome State Fault Refusal := storeOperand addr s.acc s

/-- LDA: `acc <- content(mem[addr])`, unreduced; no flag is touched (46 R241). -/
def execLda (addr : Nat) (s : State) : Host.Outcome State Fault Refusal :=
  withOperand addr s fun v => .next (s.setAcc v)

end Sys2Proof.Machine
end

