-- ==== Sys2Proof/Machine/Dispatch.lean ====
section
/-! DEFINITION. The dispatch of a cycle (43 R195): one arm per constructor of Instr, one meaning each. -/

namespace Sys2Proof.Machine

def exec (i : Instr) (s : State) : Host.Outcome State Fault Refusal :=
  match i with
  | .hlt addr => Sys2Proof.Machine.execHlt addr s
  | .add addr => Sys2Proof.Machine.execAdd addr s
  | .sub addr => Sys2Proof.Machine.execSub addr s
  | .sta addr => Sys2Proof.Machine.execSta addr s
  | .lda addr => Sys2Proof.Machine.execLda addr s
  | .bra addr => Sys2Proof.Machine.execBra addr s
  | .brz addr => Sys2Proof.Machine.execBrz addr s
  | .brp addr => Sys2Proof.Machine.execBrp addr s
  | .inp => Sys2Proof.Machine.execInp s
  | .out => Sys2Proof.Machine.execOut s
  | .illegalOp4 addr => Sys2Proof.Machine.execIllegalOp4 addr s
  | .illegalOp9 addr => Sys2Proof.Machine.execIllegalOp9 addr s
  | .dat content => Sys2Proof.Machine.execDat content s

end Sys2Proof.Machine
end

