-- ==== Sys2Proof/Machine/Step.lean ====
section
/-! DEFINITION. The fetch-decode-execute cycle (43 R197) and `stepOnce` (43 R199), in the fixed order of 43 R193. -/

namespace Sys2Proof.Machine

/-- One cycle of a running machine: bound check and read, increment, then decode and execute (43 R193, R197). -/
def cycle (s : State) : Host.Outcome State Fault Refusal :=
  match fetch s with
  | none => raise (.outOfBounds s.pc) s
  | some (c, t) =>
    match decodeCell c with
    | .ok i => exec i t
    | .error r => raiseUndecoded r t

/-- `stepOnce()`: exactly one cycle if the machine is not halted, else nothing (43 R199). -/
def step (s : State) : Host.Outcome State Fault Refusal :=
  if s.halted then .next s else cycle s

/-- The cell that the word `w` names, placed where the next cycle fetches, on a running machine. A word that names no
cell places nothing, and with pc outside memory there is no cell to place it in. See log entry 3. -/
def State.withFetchWord (s : State) (nbits w : Nat) : State :=
  match cellOfWord (w % 2 ^ nbits) with
  | some c => if inBounds s.pc then (s.setMem (Memory.put s.mem s.pc c)).setHalted false else s
  | none => s

end Sys2Proof.Machine
end

