-- ==== Sys2Proof/Machine/Code.lean ====
section
/-! DEFINITION. The pairs that go from the assembler to the loader (30 R94), the open components among them (42 R168),
and the ways either can stop. -/

namespace Sys2Proof.Machine

/-- The first component of a pair: `null`, an integer, or the open parameter `DEGRADED_OPCODE`, which is a mark and
never a number (42 R168; log entry 7). -/
inductive CodeOp where
  | null
  | value (n : Int)
  | degraded
deriving DecidableEq, Repr

/-- The second component: an integer, the open parameter `DEGRADED_OPERAND`, or what the spec calls "unspecified"
(42 R170). -/
inductive CodeArg where
  | value (n : Int)
  | degraded
  | unspecified
deriving DecidableEq, Repr

/-- One element of the assembler's output list: `(opcode or null, operand)`. -/
structure Code where
  op : CodeOp
  arg : CodeArg
deriving DecidableEq, Repr

/-- The pair of an instruction line, `(o, a)`. -/
def Code.ofPair (o a : Int) : Code := ⟨.value o, .value a⟩

/-- The pair of a `DAT` line, `(null, n)`. -/
def Code.ofData (n : Int) : Code := ⟨.null, .value n⟩

/-- The failure an assembly can report (42 R161). -/
inductive AssemblyFault where
  /-- A line of four or more tokens; the assembly returns no list (60 R307). Safe: the spec's own failure. -/
  | invalidInstructionFormat
deriving DecidableEq, Repr

/-- Source texts the spec gives no meaning to. -/
inductive AssemblyRefusal where
  /-- A character outside the admitted subset (42 R144, 93 U22; log entry 9). Safe. -/
  | characterNotAdmitted
  /-- A label defined twice (42 R152, 92 D13; log entry 8). Safe. -/
  | labelDefinedTwice
deriving DecidableEq, Repr

/-- The failures of a load; a failed load yields no machine (49 R276). -/
inductive LoadFault where
  /-- A list of more than 100 pairs; nothing is written (49 R275). Safe. -/
  | outOfBounds
  /-- A pair whose opcode or address is out of range (49 R276). Safe. -/
  | invalidCell
deriving DecidableEq, Repr

/-- Launches the spec gives no meaning to (49 R274, R277). -/
inductive LoadRefusal where
  /-- The machine is not freshly created: a load was called on it, or its state has changed (49 R277; log entry 11).
  Safe. -/
  | machineNotFresh
  /-- A pair carries a degraded component (49 R274 (c); log entry 7). Safe. -/
  | degradedPair
  /-- A `(null, x)` pair has `x` outside `0 .. 999` (49 R274 (a); log entry 5). Safe. -/
  | dataOutOfRange
  /-- An input value is outside `0 .. 999` (49 R274 (b); log entry 5). Safe. -/
  | inputOutOfRange
deriving DecidableEq, Repr

/-- The kind a failed assembly reports (60 R300). -/
def AssemblyFault.kind : AssemblyFault → FailureKind
  | .invalidInstructionFormat => .invalidInstructionFormat

/-- The kind a failed load reports (60 R300). -/
def LoadFault.kind : LoadFault → FailureKind
  | .outOfBounds => .outOfBounds
  | .invalidCell => .invalidCell

end Sys2Proof.Machine
end

