-- ==== Sys2Proof/Machine/Assembler.lean ====
section
/-! DEFINITION. The two-pass assembler (42): normalisation, label extraction, label substitution, encoding. Text is a
list of characters inside; `assemble` takes a string. -/

namespace Sys2Proof.Machine

/-- A token of the source: a maximal run of non-whitespace characters (42 R144 (c)). -/
abbrev Token := List Char

/-- A token after pass 2: still a string, or the integer a label stood for (42 R154). -/
inductive Operand where
  | word (t : Token)
  | label (address : Nat)
deriving DecidableEq, Repr

-- The tables.

/-- The instruction table: ten mnemonics and their numbers (42 R142, 30 R91). -/
def mnemonicTable : List (Token × Nat) :=
  [("HLT".toList, 0), ("ADD".toList, 1), ("SUB".toList, 2), ("STA".toList, 3), ("LDA".toList, 5),
   ("BRA".toList, 6), ("BRZ".toList, 7), ("BRP".toList, 8), ("INP".toList, 901), ("OUT".toList, 902)]

/-- The directive `DAT`, which has no numeric entry (30 R93). -/
def datToken : Token := "DAT".toList

/-- The eleven recognised mnemonics (42 R141). -/
def isMnemonic (t : Token) : Bool := t == datToken || mnemonicTable.any fun e => e.1 == t

/-- A lookup in the instruction table; anything without an entry is the failure MnemonicNotFound (42 R142). -/
def lookupMnemonic : Operand → Except FailureKind Nat
  | .label _ => .error .mnemonicNotFound
  | .word t => match mnemonicTable.lookup t with
    | some n => .ok n
    | none => .error .mnemonicNotFound

-- Characters (42 R144); the admitted ones are in Unicode.lean.

/-- Whitespace: space, tab, carriage return, vertical tab, form feed (42 R144 (c)). -/
def isBlank (c : Char) : Bool :=
  c.toNat == 0x20 || c.toNat == 0x09 || c.toNat == 0x0D || c.toNat == 0x0B || c.toNat == 0x0C

/-- ASCII uppercasing; every other character is left alone (42 R144 (d)). -/
def upperChar (c : Char) : Char := if 0x61 ≤ c.toNat ∧ c.toNat ≤ 0x7A then Char.ofNat (c.toNat - 0x20) else c

-- Pass 0: normalisation.

/-- Lines are separated by the line feed (42 R144 (a)). -/
def splitLines : List Char → List (List Char)
  | [] => [[]]
  | c :: rest =>
    if c = '\n' then [] :: splitLines rest
    else match splitLines rest with
      | line :: lines => (c :: line) :: lines
      | [] => [[c]]

/-- The line up to its first `//` (42 R144 (b)). -/
def stripComment : List Char → List Char
  | [] => []
  | '/' :: '/' :: _ => []
  | c :: rest => c :: stripComment rest

/-- The maximal runs of non-whitespace characters; `run` is the current run, last character first. -/
def tokensFrom (run : List Char) : List Char → List Token
  | [] => if run.isEmpty then [] else [run.reverse]
  | c :: rest =>
    if isBlank c then
      if run.isEmpty then tokensFrom [] rest else run.reverse :: tokensFrom [] rest
    else tokensFrom (c :: run) rest

/-- The uppercased tokens of one line. -/
def lineTokens (line : List Char) : List Token := (tokensFrom [] (stripComment line)).map (·.map upperChar)

/-- Pass 0 (42 R145): one token list per non-empty line; a token list's position is its line index. -/
def normalise (text : List Char) : List (List Token) :=
  ((splitLines text).map lineTokens).filter fun toks => !toks.isEmpty

-- Pass 1: label extraction.

/-- The label table: name to address (42 R152). -/
abbrev Labels := List (Token × Nat)

/-- The label a line defines, and the instruction it leaves. Each line is classified once, by its own token count
(42 R147 to R150); the two-token heuristic is kept as specified (42 R148). -/
def splitLabel : List Token → Option Token × List Token
  | [l, m, x] => (some l, [m, x])
  | [l, m] => if isMnemonic l then (none, [l, m]) else (some l, [m])
  | toks => (none, toks)

/-- The labels of the lines from line index `idx` on, in order of definition. -/
def labelsFrom (idx : Nat) : List (List Token) → Labels
  | [] => []
  | toks :: rest =>
    match (splitLabel toks).1 with
    | some l => (l, idx) :: labelsFrom (idx + 1) rest
    | none => labelsFrom (idx + 1) rest

/-- Pass 1 (42 R153): the label table and the stripped instructions, one per line. -/
def extractLabels (lines : List (List Token)) : Labels × List (List Token) :=
  (labelsFrom 0 lines, lines.map fun toks => (splitLabel toks).2)

/-- No name is defined twice; the spec refuses the source otherwise (42 R152). -/
def Labels.distinct : Labels → Bool
  | [] => true
  | (l, _) :: rest => !(rest.any fun e => e.1 == l) && Labels.distinct rest

-- Pass 2: label substitution.

/-- A token replaced by its label's address, if it is a known label (42 R154). -/
def resolve (labels : Labels) (t : Token) : Operand :=
  match labels.lookup t with
  | some a => .label a
  | none => .word t

/-- Pass 2 on one instruction: its last token alone is resolved, whatever its position means (42 R154, R155). -/
def substituteLast (labels : Labels) : List Token → List Operand
  | [] => []
  | [t] => [resolve labels t]
  | t :: rest => .word t :: substituteLast labels rest

-- Encoding.

/-- The value of one digit `0` to `9`. -/
def digitValue (c : Char) : Option Nat :=
  if 0x30 ≤ c.toNat ∧ c.toNat ≤ 0x39 then some (c.toNat - 0x30) else none

/-- The base-ten value of a string of digits, after `acc`. -/
def literalFrom (acc : Nat) : Token → Option Nat
  | [] => some acc
  | c :: rest => match digitValue c with
    | some d => literalFrom (acc * 10 + d) rest
    | none => none

/-- An integer literal: a non-empty string of digits, leading zeros allowed (42 R165). -/
def literalValue (t : Token) : Option Nat := if t.isEmpty then none else literalFrom 0 t

/-- The operand of a two-token instruction. Which kind a bad operand reports is not observable, since both are
swallowed (42 R167 (b)). -/
def operandValue : Operand → Except FailureKind Nat
  | .label a => .ok a
  | .word t => match literalValue t with
    | some n => .ok n
    | none => .error .labelNotFound

/-- The second component of a two-token instruction; an operand failure is swallowed (42 R167 (b)). -/
def encodeOperand (x : Operand) : CodeArg :=
  match operandValue x with
  | .ok n => .value n
  | .error _ => .degraded

/-- The encoding of one instruction, by its token count; MnemonicNotFound is swallowed (42 R160 to R168, R170). -/
def encodeTokens : List Operand → Except AssemblyFault Code
  | [m] => match lookupMnemonic m with
    | .ok code => .ok (Code.ofPair ((code / 100 : Nat) : Int) ((code % 100 : Nat) : Int))
    | .error _ => .ok ⟨.degraded, .unspecified⟩
  | [m, x] =>
    if m = .word datToken then .ok ⟨.null, encodeOperand x⟩
    else match lookupMnemonic m with
      | .ok code => .ok ⟨.value code, encodeOperand x⟩
      | .error _ => .ok ⟨.degraded, encodeOperand x⟩
  | _ => .error .invalidInstructionFormat

/-- Every instruction encoded in line order; any failure ends the whole assembly (42 R161, R170). -/
def encodeAll : List (List Operand) → Except AssemblyFault (List Code)
  | [] => .ok []
  | toks :: rest => match encodeTokens toks with
    | .error e => .error e
    | .ok code => match encodeAll rest with
      | .error e => .error e
      | .ok codes => .ok (code :: codes)

/-- The instructions of a source after pass 2, one per non-empty line. -/
def substituted (text : List Char) : List (List Operand) :=
  let (labels, instrs) := extractLabels (normalise text)
  instrs.map (substituteLast labels)

/-- The whole assembly of a text (42 R140, R170). A source outside the admitted subset has no meaning and is refused
before anything else. -/
def assembleChars (text : List Char) : Host.Outcome (List Code) AssemblyFault AssemblyRefusal :=
  if !text.all isAdmitted then .refused .characterNotAdmitted
  else if !Labels.distinct (extractLabels (normalise text)).1 then .refused .labelDefinedTwice
  else match encodeAll (substituted text) with
    | .ok codes => .next codes
    | .error e => .fault e

/-- `assemble(text)` (42 R140). -/
def assemble (text : String) : Host.Outcome (List Code) AssemblyFault AssemblyRefusal := assembleChars text.toList

-- The well-formed subset (42 R171).

/-- The mnemonics of a one-token instruction. -/
def isControlMnemonic (t : Token) : Bool := t == "INP".toList || t == "OUT".toList || t == "HLT".toList

/-- The mnemonics of a two-token instruction, but for `DAT`. -/
def isActionMnemonic (t : Token) : Bool :=
  t == "ADD".toList || t == "SUB".toList || t == "STA".toList || t == "LDA".toList || t == "BRA".toList ||
    t == "BRZ".toList || t == "BRP".toList

/-- A well-formed instruction after pass 2: its shape, and the range of its operand. -/
def wellFormedTokens : List Operand → Bool
  | [.word m] => isControlMnemonic m
  | [.word m, x] => match operandValue x with
    | .ok n => (isActionMnemonic m && decide (n ≤ 99)) || (m == datToken && decide (n ≤ 999))
    | .error _ => false
  | _ => false

/-- A label that is neither a recognised mnemonic nor a numeral. -/
def wellFormedLabel (t : Token) : Bool := !isMnemonic t && (literalValue t).isNone

/-- A well-formed source (42 R171): its output is fully determined and exercises no decision but the normalisation
details. -/
def wellFormedSource (text : List Char) : Bool :=
  text.all isAdmitted && decide ((normalise text).length ≤ Config.memSize) &&
    (extractLabels (normalise text)).1.distinct &&
    ((extractLabels (normalise text)).1.all fun e => wellFormedLabel e.1) &&
    (substituted text).all wellFormedTokens

end Sys2Proof.Machine
end

