-- ==== Sys2Proof/Machine/Loader.lean ====
section
/-! DEFINITION. The loader `initializeMemory` (49 R272 to R277): how a program comes to run. -/

namespace Sys2Proof.Machine

/-- A pair that carries a degraded component (42 R168, 49 R274 (c)). -/
def Code.isDegraded (c : Code) : Bool :=
  match c.op, c.arg with
  | .degraded, _ => true
  | _, .degraded => true
  | _, .unspecified => true
  | _, _ => false

/-- The launch premise on a `DAT` pair: `(null, x)` has `x` in `0 .. 999` (49 R274 (a)). -/
def Code.dataInRange (c : Code) : Bool :=
  match c.op, c.arg with
  | .null, .value x => decide (InThreeDigits x)
  | _, _ => true

/-- The cell a pair becomes, through the cell constructor (49 R273). A degraded pair becomes none; the loader refuses
it before. -/
def Code.toCell (c : Code) : Except FailureKind MemCell :=
  match c.op, c.arg with
  | .null, .value x => MemCell.construct (some x) none
  | .value o, .value a => MemCell.construct none (some (o, a))
  | _, _ => MemCell.construct none none

/-- Pair number `i` goes to address `i`, from `at` on (49 R273). -/
def loadCells (at' : Nat) : List Code → Memory → Except FailureKind Memory
  | [], m => .ok m
  | c :: rest, m => match c.toCell with
    | .ok cell => loadCells (at' + 1) rest (Memory.put m at' cell)
    | .error k => .error k

/-- One machine as the host holds it: its state, and whether `initializeMemory` has been called on it. The flag is the
host protocol's own and no state element (49 R277, 10 R20); cycles change `state` alone. -/
structure Engine where
  state : State
  loaded : Bool
deriving DecidableEq, Repr

/-- A freshly created machine, on which nothing has been called (10 R34, 49 R272). -/
def Engine.fresh : Engine := ⟨State.reset, false⟩

/-- `initializeMemory(codes, inputValues)` (49 R273), once per machine and before the first cycle (49 R277; log entry
11). The launch premises come first: where one fails, the launch has no meaning (49 R274). A failed load yields no
machine (49 R276). -/
def initializeMemory (codes : List Code) (inputValues : List Int) (e : Engine) :
    Host.Outcome Engine LoadFault LoadRefusal :=
  if e ≠ Engine.fresh then .refused .machineNotFresh
  else if codes.any Code.isDegraded then .refused .degradedPair
  else if !codes.all Code.dataInRange then .refused .dataOutOfRange
  else if !inputValues.all (fun v => decide (InThreeDigits v)) then .refused .inputOutOfRange
  else if Config.memSize < codes.length then .fault .outOfBounds
  else match loadCells 0 codes e.state.mem with
    | .error _ => .fault .invalidCell
    | .ok m => .next ⟨(e.state.setMem m).setInq (inputValues.foldl enqueue e.state.inq), true⟩

end Sys2Proof.Machine
end

