-- ==== Sys2Proof/Machine/Orchestrator.lean ====
section
/-! DEFINITION. The host's operations on the core (49 R270): assembling, stepping, running, observing. The loader is in
Loader.lean. -/

namespace Sys2Proof.Machine

/-- `loadAndAssemble(path)`, from the text on; finding and reading the file is the host's part (49 R271, 00 R3). It
touches no machine. -/
def loadAndAssemble (text : String) : Host.Outcome (List Code) AssemblyFault AssemblyRefusal := assemble text

/-- `stepOnce()` (43 R199). -/
def stepOnce (s : State) : Host.Outcome State Fault Refusal := step s

/-- `stepOnce()` called so many times, ending at the first failure (60 R318). -/
def stepMany : Nat → State → Host.Outcome State Fault Refusal
  | 0, s => .next s
  | n + 1, s => match stepOnce s with
    | .next t => stepMany n t
    | .fault f => .fault f
    | .refused r => .refused r

/-- How a run of at most so many cycles ends (43 R202). -/
inductive RunEnd where
  /-- The machine is halted and no cycle reported a failure. -/
  | halted (s : State)
  /-- A cycle reported a failure, which ends the run (60 R318). -/
  | failed (f : Fault)
  /-- The fuel ran out: the run has not ended (92 D21; log entry 12). -/
  | notEnded (s : State)
  /-- A step without a meaning; none exists in this model. -/
  | refused (r : Refusal)
deriving DecidableEq, Repr

/-- `runToHalt()`: cycles until the machine is halted or a cycle fails (43 R200). The hardware has no bound; `fuel` is
the model's (92 D21). -/
def runToHalt : Nat → State → RunEnd
  | 0, s => if s.halted then .halted s else .notEnded s
  | fuel + 1, s =>
    if s.halted then .halted s
    else match cycle s with
      | .next t => runToHalt fuel t
      | .fault f => .failed f
      | .refused r => .refused r

/-- `isHalted()` (49 R279). After a failure it is asked of the state the failure left. -/
def isHalted (s : State) : Bool := s.halted

/-- `outputQueueSnapshot()`: the elements of the output queue, head first; nothing is dequeued (49 R280). -/
def outputQueueSnapshot (s : State) : List Int := s.outq

/-- What `stateSnapshot()` shows; `ovf` and `halted` are not among it (49 R281). -/
structure Snapshot where
  pc : Nat
  accumulator : Int
  memory : List MemCell
  inputQueue : List Int
  outputQueue : List Int
deriving DecidableEq, Repr

/-- `stateSnapshot()`: pc, the accumulator, the 100 cells in address order with their kind (92 D22), and the two
queues (49 R281). -/
def stateSnapshot (s : State) : Snapshot where
  pc := s.pc
  accumulator := s.acc
  memory := (List.range Config.memSize).map (Memory.cellAt s.mem)
  inputQueue := s.inq
  outputQueue := s.outq

end Sys2Proof.Machine
end

