-- ==== Sys2Proof/Safety.lean ====
section
/-! DEFINITION. The states of a run in the spec's domain (10 R20), in the terms the claims use. -/

namespace Sys2Proof.Machine

/-- Every listed cell is in its domain (40 R111). -/
def Memory.cellsOk (m : Memory) : Bool := m.all fun e => e.2.wf

/-- Every element of a queue is in `0 .. 999` (10 R31). -/
def Queue.inRange (q : Queue) : Bool := q.all fun v => decide (InThreeDigits v)

/-- The invariant of every machine the spec describes: memory in its canonical form with cells in their domain, the
accumulator and the queues in `0 .. 999` (10 R22, R31), pc in `0 .. 100` (10 R23), and the overflow flag false
(10 R26). -/
structure State.Inv (s : State) : Prop where
  memCanonical : Memory.wf s.mem = true
  memInDomain : Memory.cellsOk s.mem = true
  accInDomain : InThreeDigits s.acc
  pcInRange : s.pc ≤ Config.memSize
  ovfClear : s.ovf = false
  inqInDomain : Queue.inRange s.inq = true
  outqInDomain : Queue.inRange s.outq = true

/-- `State.Inv` as a test on a concrete state. -/
def State.invB (s : State) : Bool :=
  Memory.wf s.mem && Memory.cellsOk s.mem && decide (InThreeDigits s.acc) && decide (s.pc ≤ Config.memSize) &&
    !s.ovf && Queue.inRange s.inq && Queue.inRange s.outq

/-- An outcome that keeps a property: of the next state, or of the state a failure leaves; never a refusal. -/
def keeps (P : State → Prop) : Host.Outcome State Fault Refusal → Prop
  | .next t => P t
  | .fault f => P f.left
  | .refused _ => False

end Sys2Proof.Machine
end

