-- ==== Sys2Proof/Certificates/Slice0/Obligations.lean ====
section
/-! DEFINITION. The statements for the provers. Each formalises the rule of spec/ its docstring names; OBLIGATIONS.json
says which are the spec's own sentences and which rest on its inferences and choices. In statements about `exec` the
state is the one after the fetch, whose pc is already one past the instruction (43 R192). -/

open Sys2Proof Sys2Proof.Machine

namespace Sys2Proof.Claims

/-- What the assembler makes of an action mnemonic with a literal or a resolved label (42 R163). -/
def actionAssembles (mnemonic : String) (opcode : Nat) : Prop :=
  mnemonicTable.lookup mnemonic.toList = some opcode ∧
  (∀ t n, literalValue t = some n →
    encodeTokens [.word mnemonic.toList, .word t] = .ok (Code.ofPair opcode n)) ∧
  ∀ a, encodeTokens [.word mnemonic.toList, .label a] = .ok (Code.ofPair opcode a)

/-- What the assembler makes of a one-token line with a combined code (42 R162). -/
def controlAssembles (mnemonic : String) (code opcode address : Nat) : Prop :=
  mnemonicTable.lookup mnemonic.toList = some code ∧ unpack code = (opcode, address) ∧
  encodeTokens [.word mnemonic.toList] = .ok (Code.ofPair opcode address)

/-- The encoding of an instruction with an operand: opcode `o` with any address, and no other address reaches it from
a cell in its domain. -/
def operandEncodes (o : Nat) (i : Nat → Instr) : Prop :=
  (∀ a, a ≤ 99 → decodeCell (.instr o a) = .ok (i a) ∧ (MemCell.instr o a).content = (o : Int) * 100 + a) ∧
  ∀ c a, c.wf = true → decodeCell c = .ok (i a) → c = .instr o a ∧ a < 100

/-- A running machine about to fetch the cell `c`. -/
def fetches (s : State) (c : MemCell) : Prop := s.halted = false ∧ s.pc < 100 ∧ Memory.cellAt s.mem s.pc = c

/-- The run from `s` never ends and comes back to `s` at every cycle. -/
def spins (s : State) : Prop := ∀ fuel, runToHalt fuel s = .notEnded s

/-- The launch premises of 49 R274. -/
def launchable (codes : List Code) (inputs : List Int) : Prop :=
  (∀ c ∈ codes, (∃ x, c = Code.ofData x ∧ InThreeDigits x) ∨ ∃ o a, c = Code.ofPair o a) ∧
  ∀ v ∈ inputs, InThreeDigits v

/-- A pair the cell constructor accepts (40 R112). -/
def pairInRange (o a : Int) : Prop := 0 ≤ o ∧ o ≤ 9 ∧ 0 ≤ a ∧ a ≤ 99

/-- A run of characters that are one token of a line: none is whitespace, and no comment starts in it (42 R144). -/
def isRun (run : List Char) : Prop := run ≠ [] ∧ (∀ c ∈ run, isBlank c = false) ∧ ¬ ['/', '/'] <:+: run

/-- The token in the mnemonic's place has no entry in the table (42 R167 (a)). -/
def noEntry (m : Operand) : Prop := (∃ a, m = .label a) ∨ ∃ t, m = .word t ∧ mnemonicTable.lookup t = none

/-- The operand has the value `n`, by a literal or by a label (42 R163). -/
def operandIs (x : Operand) (n : Nat) : Prop := x = .label n ∨ ∃ t, x = .word t ∧ literalValue t = some n

/-- The operand is neither a literal nor a known label (42 R167 (b)). -/
def badOperand (x : Operand) : Prop := ∃ t, x = .word t ∧ literalValue t = none

/-- The pair carries a degraded component (42 R168, R170). -/
def carriesMark (c : Code) : Prop := c.op = .degraded ∨ c.arg = .degraded ∨ c.arg = .unspecified

end Sys2Proof.Claims

open Sys2Proof.Claims

-- Reset.

/-- 10 R34, 70 R340: a machine right after its creation. `halted` is the source's; the other values are the spec's
choices (92 D2, D3; log entries 1 and 2). -/
def Obligations.ResetLeavesTheseValues : Prop :=
  State.reset.halted = false ∧ State.reset.pc = 0 ∧ State.reset.acc = 0 ∧ State.reset.ovf = false ∧
  (∀ a, Memory.cellAt State.reset.mem a = .data 0) ∧ State.reset.inq = [] ∧ State.reset.outq = []

/-- The reset state meets the invariant of the machine (10 R22, R23, R26, R31). -/
def Obligations.ResetMeetsInvariant : Prop := State.Inv State.reset

-- Invariants.

/-- 10 R20, R22, R23, R26, R31: one step keeps the domains, pc in `0 .. 100`, the flag false and memory canonical, in
the next state and in the state a failure leaves; and no step is refused. -/
def Obligations.StepKeepsInvariant : Prop := ∀ s : State, s.Inv → keeps State.Inv (step s)

/-- The same over any number of steps. -/
def Obligations.RunsKeepInvariant : Prop := ∀ n (s : State), s.Inv → keeps State.Inv (stepMany n s)

/-- 10 R22, 49 R274: whatever the loader accepts gives a machine in the domain. -/
def Obligations.LoadedMachineMeetsInvariant : Prop :=
  ∀ codes inputs e t, initializeMemory codes inputs e = .next t → t.state.Inv

/-- 10 R26, 45 R231: ADD and SUB test the reduced result, the test never succeeds, and no instruction, step or failure
changes the flag. -/
def Obligations.OverflowFlagNeverChanges : Prop :=
  (∀ r : Int, fallsOutside (r % 1000) = false) ∧
  (∀ i s, keeps (fun t => t.ovf = s.ovf) (exec i s)) ∧
  ∀ n s, keeps (fun t => t.ovf = s.ovf) (stepMany n s)

-- Encoding.

/-- 30 R84: every well-formed instruction, with every operand its encoding admits, is read back from its cell and from
its word. -/
def Obligations.DecodeEncodeRoundTrip : Prop :=
  ∀ i : Instr, i.wf = true →
    (encodeCell i).wf = true ∧ decodeCell (encodeCell i) = .ok i ∧
    ∀ nbits, 11 ≤ nbits → decodeTableWord nbits (encodeWord i) = some i

/-- 30 R84, R81: every cell in its domain decodes to exactly one well-formed instruction, whose cell it is. -/
def Obligations.EveryCellDecodesOnce : Prop :=
  ∀ c : MemCell, c.wf = true →
    ∃ i : Instr, i.wf = true ∧ decodeCell c = .ok i ∧ encodeCell i = c ∧
      ∀ j : Instr, j.wf = true → encodeCell j = c → j = i

/-- 40 R117: construction from a pair succeeds, and unpacking the packed content gives the pair back. -/
def Obligations.PackedContentRoundTrip : Prop :=
  ∀ o a : Nat, o ≤ 9 → a ≤ 99 →
    MemCell.construct none (some ((o : Int), (a : Int))) = .ok (.instr o a) ∧
    (MemCell.instr o a).content = ((pack o a : Nat) : Int) ∧ unpack (pack o a) = (o, a)

/-- 30 R84: cells written out digit by digit from the opcode map decode to the instructions they stand for. -/
def Obligations.WrittenWordsDecode : Prop :=
  decodeWord 0 = .ok (.hlt 0) ∧ decodeWord 37 = .ok (.hlt 37) ∧ decodeWord 106 = .ok (.add 6) ∧
  decodeWord 207 = .ok (.sub 7) ∧ decodeWord 399 = .ok (.sta 99) ∧ decodeWord 450 = .ok (.illegalOp4 50) ∧
  decodeWord 550 = .ok (.lda 50) ∧ decodeWord 601 = .ok (.bra 1) ∧ decodeWord 705 = .ok (.brz 5) ∧
  decodeWord 804 = .ok (.brp 4) ∧ decodeWord 900 = .ok (.illegalOp9 0) ∧ decodeWord 901 = .ok .inp ∧
  decodeWord 902 = .ok .out ∧ decodeWord 999 = .ok (.illegalOp9 99) ∧ decodeCell (.data 901) = .ok (.dat 901)

-- The cycle.

/-- 43 R193, R197: where the fetched cell decodes to an instruction, a running machine's step is that instruction run
after pc has been advanced by one. -/
def Obligations.StepRunsDecodedInstruction : Prop :=
  ∀ s i, s.halted = false → s.pc < 100 → decodeCell (Memory.cellAt s.mem s.pc) = .ok i →
    step s = exec i { s with pc := s.pc + 1 }

/-- A word placed for the next fetch is the instruction the next step runs; nothing else in memory has changed. -/
def Obligations.PlacedWordRunsNext : Prop :=
  ∀ (s : State) nbits w i, s.pc < 100 → decodeTableWord nbits w = some i →
    ∃ m, s.withFetchWord nbits w = { s with mem := m, halted := false } ∧
      (∀ b, b ≠ s.pc → Memory.cellAt m b = Memory.cellAt s.mem b) ∧
      step (s.withFetchWord nbits w) = exec i { s with mem := m, halted := false, pc := s.pc + 1 }

/-- 43 R199: `stepOnce` runs exactly one cycle if the machine is not halted and does nothing otherwise, also after each
kind of failure. -/
def Obligations.StepOnceRunsOneCycle : Prop :=
  (∀ s : State, s.halted = true → stepOnce s = .next s) ∧
  (∀ s : State, s.halted = false → stepOnce s = cycle s) ∧
  ∀ s f, stepOnce s = .fault f →
    (f.kind = .halt → stepOnce f.left = .next f.left) ∧
    (f.kind ≠ .halt → f.left.halted = false ∧ stepOnce f.left = cycle f.left) ∧
    (100 ≤ s.pc → f.left = s ∧ stepOnce f.left = .fault f)

/-- 60 R301: a cycle that starts with pc outside memory fails with OutOfBounds and changes nothing; in the domain that
is pc 100, which a step reaches only from cell 99. -/
def Obligations.FetchOutsideMemoryFails : Prop :=
  (∀ s : State, s.halted = false → 100 ≤ s.pc → step s = .fault (.outOfBounds s.pc s)) ∧
  (∀ s : State, s.Inv → 100 ≤ s.pc → s.pc = 100) ∧
  ∀ s t : State, s.Inv → s.halted = false → step s = .next t → t.pc = 100 → s.pc = 99

/-- 70 R352: the instruction fetched from cell 99, if it neither halts nor branches, is followed by OutOfBounds. -/
def Obligations.CellNinetyNineMustNotFallThrough : Prop :=
  ∀ s t i, s.halted = false → s.pc = 99 → decodeCell (Memory.cellAt s.mem 99) = .ok i → step s = .next t →
    (∀ a, i ≠ .hlt a) → (∀ a, i ≠ .bra a) → (∀ a, i = .brz a → ¬ (s.acc = 0 ∧ s.ovf = false)) →
    (∀ a, i = .brp a → s.ovf = true) →
    t.pc = 100 ∧ step t = .fault (.outOfBounds 100 t)

/-- 43 R201: the transitions of the halted flag. -/
def Obligations.HaltedTransitions : Prop :=
  State.reset.halted = false ∧
  (∀ s : State, s.halted = true → step s = .next s ∧ ∀ fuel, runToHalt fuel s = .halted s) ∧
  (∀ s t, s.halted = false → step s = .next t →
    (t.halted = true ↔ ∃ a, Memory.cellAt s.mem s.pc = .instr 0 a)) ∧
  ∀ s f, step s = .fault f →
    s.halted = false ∧ (f.left.halted = true ↔ f.kind = .halt) ∧
    (f.kind = .halt ↔ s.pc < 100 ∧ ∃ v, Memory.cellAt s.mem s.pc = .data v)

-- Failures.

/-- 30 R87, 43 R194: a data cell fetched as an instruction fails with Halt, whatever its content, and leaves the
machine halted; the meaning of the row DAT is that stop. -/
def Obligations.DataCellNeverExecutes : Prop :=
  (∀ s v, ∃ l, exec (.dat v) s = .fault (.halt l) ∧ l = { s with halted := true, pc := l.pc }) ∧
  ∀ s v, fetches s (.data v) → ∃ l, step s = .fault (.halt l) ∧ l.halted = true

/-- 30 R85: opcode 4, and of the ten digits only it, is the dispatch's "other" row. That the failure leaves pc where the
fetch put it is the spec's choice (92 D6; log entry 4). -/
def Obligations.OpcodeFourFails : Prop :=
  (∀ s a, exec (.illegalOp4 a) s = .fault (.invalidOpcode 4 a s)) ∧
  (∀ s a, fetches s (.instr 4 a) → ∃ l, step s = .fault (.invalidOpcode 4 a l) ∧ l.halted = false) ∧
  ∀ o a b, o ≤ 9 → (decodeCell (.instr o a) = .ok (.illegalOp4 b) ↔ o = 4 ∧ a = b)

/-- 30 R86 (the spec's decision 92 D8; log entry 6): opcode 9 with an address other than 1 or 2 fails. That the failure
leaves pc where the fetch put it is the spec's choice too (92 D6; log entry 4). -/
def Obligations.OpcodeNineOtherAddressFails : Prop :=
  (∀ s a, exec (.illegalOp9 a) s = .fault (.invalidOpcode 9 a s)) ∧
  (∀ s a, a ≠ 1 → a ≠ 2 → fetches s (.instr 9 a) →
    ∃ l, step s = .fault (.invalidOpcode 9 a l) ∧ l.halted = false) ∧
  ∀ o a b, decodeCell (.instr o a) = .ok (.illegalOp9 b) ↔ o = 9 ∧ a = b ∧ a ≠ 1 ∧ a ≠ 2

/-- 60 R309: the state each failure leaves; pc after the last three is the spec's choice (92 D6, D7; log entry 4). -/
def Obligations.FailuresLeaveTheseStates : Prop :=
  ∀ s f, s.Inv → step s = .fault f →
    (f.kind = .outOfBounds → f.left = s) ∧
    (f.kind = .halt → f.left = { s with pc := s.pc + 1, halted := true }) ∧
    (f.kind = .invalidOpcode → f.left = { s with pc := s.pc + 1 }) ∧
    (f.kind = .emptyQueue → f.left = { s with pc := s.pc + 1 } ∧ s.inq = [])

/-- 60 R313 and R300 to R305: in the domain a step of a running machine fails exactly in these cases, each with its
kind, and completes in every other one. -/
def Obligations.StepFailsExactlyWhen : Prop :=
  ∀ s : State, s.Inv → s.halted = false →
    ((∃ t, step s = .next t) ∨ ∃ f, step s = .fault f) ∧
    ((∃ a l, step s = .fault (.outOfBounds a l)) ↔ s.pc = 100) ∧
    ((∃ l, step s = .fault (.halt l)) ↔ ∃ v, fetches s (.data v)) ∧
    ((∃ o a l, step s = .fault (.invalidOpcode o a l)) ↔
      ∃ o a, fetches s (.instr o a) ∧ (o = 4 ∨ (o = 9 ∧ a ≠ 1 ∧ a ≠ 2))) ∧
    ((∃ l, step s = .fault (.emptyQueue l)) ↔ fetches s (.instr 9 1) ∧ s.inq = [])

-- The instructions.

/-- 44 R220: HLT. -/
def Obligations.HltHalts : Prop :=
  operandEncodes 0 .hlt ∧ controlAssembles "HLT" 0 0 0 ∧
  (∀ s a, exec (.hlt a) s = .next { s with halted := true }) ∧
  (∀ s a fuel, fetches s (.instr 0 a) →
    step s = .next { s with pc := s.pc + 1, halted := true } ∧
    runToHalt (fuel + 1) s = .halted { s with pc := s.pc + 1, halted := true }) ∧
  (∀ s : State, s.halted = true → stepOnce s = .next s) ∧
  (∀ s : State, s.halted = false →
    keeps (fun t => t.halted = true → (∃ a, fetches s (.instr 0 a)) ∨ ∃ v, fetches s (.data v)) (step s)) ∧
  (∀ s, fetches s (.data 0) → ∃ l, step s = .fault (.halt l) ∧ l.halted = true) ∧
  ∀ fuel s t, s.halted = false → runToHalt fuel s = .halted t →
    ∃ u a, fetches u (.instr 0 a) ∧ step u = .next t

/-- 45 R230: ADD. -/
def Obligations.AddAddsModuloThousand : Prop :=
  operandEncodes 1 .add ∧ actionAssembles "ADD" 1 ∧
  (∀ s a, a < 100 →
    exec (.add a) s = .next { s with acc := (s.acc + (Memory.cellAt s.mem a).content) % 1000 }) ∧
  ∀ s a, 100 ≤ a → exec (.add a) s = .fault (.outOfBounds a s)

/-- 45 R232: SUB. -/
def Obligations.SubSubtractsModuloThousand : Prop :=
  operandEncodes 2 .sub ∧ actionAssembles "SUB" 2 ∧
  (∀ s a, a < 100 →
    exec (.sub a) s = .next { s with acc := (s.acc - (Memory.cellAt s.mem a).content) % 1000 }) ∧
  ∀ s a, 100 ≤ a → exec (.sub a) s = .fault (.outOfBounds a s)

/-- 45 R233: on values of three digits ADD and SUB wrap once, and each undoes the other. -/
def Obligations.AddAndSubWrapAndAreInverse : Prop :=
  ∀ (s : State) a v, a < 100 → InThreeDigits s.acc → (Memory.cellAt s.mem a).content = v → InThreeDigits v →
    ∃ t u, exec (.add a) s = .next t ∧ exec (.sub a) s = .next u ∧
      t.acc = (if s.acc + v ≤ 999 then s.acc + v else s.acc + v - 1000) ∧
      u.acc = (if v ≤ s.acc then s.acc - v else s.acc - v + 1000) ∧
      exec (.sub a) t = .next s ∧ exec (.add a) u = .next s

/-- 46 R240: STA; the cell becomes `D(acc)`, every other cell and every other element is unchanged, and fetching the
cell afterwards fails with Halt. -/
def Obligations.StaStoresDataCell : Prop :=
  operandEncodes 3 .sta ∧ actionAssembles "STA" 3 ∧
  (∀ (s : State) a, a < 100 → ∃ m, exec (.sta a) s = .next { s with mem := m } ∧
    Memory.cellAt m a = .data s.acc ∧ (∀ b, b ≠ a → Memory.cellAt m b = Memory.cellAt s.mem b) ∧
    (Memory.wf s.mem = true → Memory.wf m = true) ∧
    ∀ u : State, u.halted = false → u.pc = a → u.mem = m → ∃ l, step u = .fault (.halt l)) ∧
  ∀ s a, 100 ≤ a → exec (.sta a) s = .fault (.outOfBounds a s)

/-- 46 R241: LDA. -/
def Obligations.LdaLoadsContent : Prop :=
  operandEncodes 5 .lda ∧ actionAssembles "LDA" 5 ∧
  (∀ s a, a < 100 → exec (.lda a) s = .next { s with acc := (Memory.cellAt s.mem a).content }) ∧
  ∀ s a, 100 ≤ a → exec (.lda a) s = .fault (.outOfBounds a s)

/-- 47 R250: BRA; a branch to itself loops forever, and a branch to a data cell succeeds with the next fetch
failing. -/
def Obligations.BraBranchesAlways : Prop :=
  operandEncodes 6 .bra ∧ actionAssembles "BRA" 6 ∧
  (∀ s a, exec (.bra a) s = .next { s with pc := a }) ∧
  (∀ s : State, fetches s (.instr 6 s.pc) → spins s) ∧
  ∀ (s : State) a v, s.halted = false → a < 100 → Memory.cellAt s.mem a = .data v →
    ∃ t l, exec (.bra a) s = .next t ∧ step t = .fault (.halt l)

/-- 47 R251: BRZ. -/
def Obligations.BrzBranchesOnZero : Prop :=
  operandEncodes 7 .brz ∧ actionAssembles "BRZ" 7 ∧
  (∀ s a, exec (.brz a) s = .next (if s.acc = 0 ∧ s.ovf = false then { s with pc := a } else s)) ∧
  (∀ s a, s.Inv → exec (.brz a) s = .next (if s.acc = 0 then { s with pc := a } else s)) ∧
  ∀ s : State, fetches s (.instr 7 s.pc) → s.acc = 0 → s.ovf = false → spins s

/-- 47 R252: BRP, exactly as specified: the accumulator is not inspected. -/
def Obligations.BrpIgnoresAccumulator : Prop :=
  operandEncodes 8 .brp ∧ actionAssembles "BRP" 8 ∧
  (∀ s a, exec (.brp a) s = .next (if s.ovf = false then { s with pc := a } else s)) ∧
  (∀ s a, s.Inv → exec (.brp a) s = exec (.bra a) s) ∧
  ∀ s : State, fetches s (.instr 8 s.pc) → s.ovf = false → spins s

/-- 48 R260: INP takes the head of the input; on an empty queue it fails with EmptyQueue and changes nothing, pc
staying where the fetch put it by the spec's choice (92 D6; log entry 4). -/
def Obligations.InpTakesHeadOfInput : Prop :=
  (∀ c, decodeCell c = .ok .inp ↔ c = .instr 9 1) ∧ controlAssembles "INP" 901 9 1 ∧
  (∀ s v rest, s.inq = v :: rest → exec .inp s = .next { s with acc := v, inq := rest }) ∧
  ∀ s : State, s.inq = [] → exec .inp s = .fault (.emptyQueue s)

/-- 48 R261: OUT appends the accumulator to the output and never fails; no instruction reads the output. -/
def Obligations.OutAppendsAccumulator : Prop :=
  (∀ c, decodeCell c = .ok .out ↔ c = .instr 9 2) ∧ controlAssembles "OUT" 902 9 2 ∧
  (∀ s, exec .out s = .next { s with outq := s.outq ++ [s.acc] }) ∧
  ∀ i s t q, exec i s = .next t →
    ∃ t', exec i { s with outq := q } = .next t' ∧ { t' with outq := [] } = { t with outq := [] }

-- Frames.

/-- 10 R21, R24, R25, R27, R30, R31: what each instruction leaves unchanged; every cell but the one STA addresses reads
as before. -/
def Obligations.InstructionFrames : Prop :=
  ∀ i s t, exec i s = .next t →
    ((∀ a, i ≠ .add a) → (∀ a, i ≠ .sub a) → (∀ a, i ≠ .lda a) → i ≠ .inp → t.acc = s.acc) ∧
    ((∀ a, i ≠ .bra a) → (∀ a, i ≠ .brz a) → (∀ a, i ≠ .brp a) → t.pc = s.pc) ∧
    t.ovf = s.ovf ∧ ((∀ a, i ≠ .hlt a) → t.halted = s.halted) ∧
    (i ≠ .inp → t.inq = s.inq) ∧ (i ≠ .out → t.outq = s.outq) ∧
    (∀ b, i ≠ .sta b → Memory.cellAt t.mem b = Memory.cellAt s.mem b) ∧
    ((∀ a, i ≠ .sta a) → t.mem = s.mem) ∧ (Memory.wf s.mem = true → Memory.wf t.mem = true)

/-- 20 R64, R53: LDA, ADD and SUB see the content of a cell and never its kind. -/
def Obligations.DataAccessIgnoresCellKind : Prop :=
  ∀ (s : State) m a, (∀ b, (Memory.cellAt m b).content = (Memory.cellAt s.mem b).content) →
    ∀ i, i = .lda a ∨ i = .add a ∨ i = .sub a → a < 100 →
      ∃ t, exec i s = .next t ∧ exec i { s with mem := m } = .next { t with mem := m }

/-- 10 R30, 20 R61: no step makes an instruction cell; a cell that holds an instruction afterwards held it before. -/
def Obligations.InstructionCellsOnlyShrink : Prop :=
  ∀ n s, keeps (fun t => ∀ a o b, Memory.cellAt t.mem a = .instr o b → Memory.cellAt s.mem a = .instr o b)
    (stepMany n s)

/-- 20 R61, 70 R351: what STA stored is data for the rest of the run, and fetching it fails with Halt. -/
def Obligations.StoredValueNeverExecutes : Prop :=
  ∀ s a t n u, exec (.sta a) s = .next t → stepMany n t = .next u →
    (∃ v, Memory.cellAt u.mem a = .data v) ∧
    (u.halted = false → u.pc = a → ∃ l, step u = .fault (.halt l))

/-- 10 R31, 41 R136: a step takes at most the head of the input, by INP, and appends at most the accumulator to the
output, by OUT; over a run the input shrinks from the head and the output grows at the tail. -/
def Obligations.QueuesMoveInOrder : Prop :=
  (∀ s t, step s = .next t →
    (t.inq = s.inq ∨ (fetches s (.instr 9 1) ∧ s.inq = t.acc :: t.inq)) ∧
    (t.outq = s.outq ∨ (fetches s (.instr 9 2) ∧ t.outq = s.outq ++ [s.acc]))) ∧
  ∀ n s, keeps (fun t => t.inq <:+ s.inq ∧ s.outq <+: t.outq) (stepMany n s)

-- Runs.

/-- 43 R200, R202, 92 D21: `runToHalt` is `stepOnce` repeated; a run that has ended stays ended the same way under any
further fuel, and one that is not ended is not halted. -/
def Obligations.RunToHaltRepeatsStepOnce : Prop :=
  (∀ n s t, runToHalt n s = .halted t ↔ stepMany n s = .next t ∧ t.halted = true) ∧
  (∀ n s t, runToHalt n s = .notEnded t ↔ stepMany n s = .next t ∧ t.halted = false) ∧
  (∀ n s f, runToHalt n s = .failed f ↔ stepMany n s = .fault f) ∧
  (∀ n k s t, runToHalt n s = .halted t → runToHalt (n + k) s = .halted t) ∧
  ∀ n k s f, runToHalt n s = .failed f → runToHalt (n + k) s = .failed f

-- The components.

/-- 40 R112, R114, R115, R116: the cell's construction, its reading and its assignment. -/
def Obligations.CellOperations : Prop :=
  (∀ v p, MemCell.construct (some v) (some p) = .error .invalidCell) ∧
  MemCell.construct none none = .error .invalidCell ∧
  (∀ v, MemCell.construct (some v) none = .ok (.data v)) ∧
  (∀ o a : Int, pairInRange o a → MemCell.construct none (some (o, a)) = .ok (.instr o.toNat a.toNat)) ∧
  (∀ o a : Int, ¬ pairInRange o a → MemCell.construct none (some (o, a)) = .error .invalidCell) ∧
  (∀ v, (MemCell.data v).content = v ∧ (MemCell.data v).view = none) ∧
  (∀ o a : Nat, (MemCell.instr o a).content = (o : Int) * 100 + a ∧ (MemCell.instr o a).view = some (o, a)) ∧
  (∀ c : MemCell, c.wf = true → InThreeDigits c.content) ∧
  (∀ c : MemCell, c.view = none ↔ ∃ v, decodeCell c = .ok (.dat v)) ∧
  ∀ (c : MemCell) v, c.assign v = .data v ∧ (c.assign v).content = v ∧ (c.assign v).view = none

/-- 41 R131, R132, R133: the queue's operations; the failure on an empty queue reaches INP. -/
def Obligations.QueueOperations : Prop :=
  (∀ (q : Queue) v, enqueue q v = q ++ [v]) ∧
  (∀ v (rest : Queue), dequeue (v :: rest) = .ok (v, rest)) ∧
  dequeue [] = .error .emptyQueue ∧
  (∀ (q rest : Queue) v w, dequeue q = .ok (v, rest) → dequeue (enqueue q w) = .ok (v, enqueue rest w)) ∧
  ∀ s : State, s.inq = [] → ∃ l, exec .inp s = .fault (.emptyQueue l) ∧ l.inq = []

/-- 49 R273, 10 R35: what a load leaves. That a cell no pair was loaded into reads `D(0)` is the spec's choice of
INIT_CELL (92 D3; log entry 2), and `loaded` is the host protocol's flag (49 R277; log entry 11). -/
def Obligations.InitializeMemoryLoads : Prop :=
  ∀ codes inputs, launchable codes inputs → codes.length ≤ 100 →
    (∀ o a, Code.ofPair o a ∈ codes → pairInRange o a) →
    ∃ m, initializeMemory codes inputs Engine.fresh = .next ⟨{ State.reset with mem := m, inq := inputs }, true⟩ ∧
      (∀ i x, codes[i]? = some (Code.ofData x) → Memory.cellAt m i = .data x) ∧
      (∀ i o a, codes[i]? = some (Code.ofPair o a) → Memory.cellAt m i = .instr o.toNat a.toNat) ∧
      ∀ i, codes.length ≤ i → Memory.cellAt m i = .data 0

/-- 49 R274 to R277 (the spec's decisions 92 D4, D10, D17; log entries 5, 7, 11): loads that fail and launches that are
refused. -/
def Obligations.InitializeMemoryFailsOrRefuses : Prop :=
  (∀ codes inputs, launchable codes inputs → 100 < codes.length →
    initializeMemory codes inputs Engine.fresh = .fault .outOfBounds) ∧
  (∀ codes inputs o a, launchable codes inputs → codes.length ≤ 100 → Code.ofPair o a ∈ codes →
    ¬ pairInRange o a → initializeMemory codes inputs Engine.fresh = .fault .invalidCell) ∧
  (∀ codes inputs e, ¬ launchable codes inputs → ∃ r, initializeMemory codes inputs e = .refused r) ∧
  ∀ codes inputs e, e ≠ Engine.fresh → ∃ r, initializeMemory codes inputs e = .refused r

/-- 49 R277 (the spec's decision 92 D17; log entry 11): a machine that has been loaded is never loaded again, whatever
has happened to its state since, and a machine that has run a cycle is not loaded. -/
def Obligations.SecondLoadIsRefused : Prop :=
  (∀ codes inputs e t, initializeMemory codes inputs e = .next t →
    ∀ codes' inputs' s, initializeMemory codes' inputs' { t with state := s } = .refused .machineNotFresh) ∧
  ∀ codes inputs n, 0 < n →
    keeps (fun s => initializeMemory codes inputs ⟨s, false⟩ = .refused .machineNotFresh) (stepMany n State.reset)

/-- 42 R145, R146, R144 (the spec's reading, 92 D14; log entry 9): what pass 0 gives. The lines keep their order and lose
only the empty ones; a line is cut at its first `//`; what is left is read from the left as whitespace and runs, each run
one token, uppercased. -/
def Obligations.NormalisedTokens : Prop :=
  (∀ lines : List (List Char), (∀ l ∈ lines, '\n' ∉ l) →
    normalise (['\n'].intercalate lines) = (lines.map lineTokens).filter fun toks => !toks.isEmpty) ∧
  (∀ line rest, ¬ ['/', '/'] <:+: line ++ ['/'] → lineTokens (line ++ '/' :: '/' :: rest) = lineTokens line) ∧
  lineTokens [] = [] ∧
  (∀ b line, isBlank b = true → lineTokens (b :: line) = lineTokens line) ∧
  (∀ run, isRun run → lineTokens run = [run.map upperChar]) ∧
  (∀ run b line, isRun run → isBlank b = true →
    lineTokens (run ++ b :: line) = run.map upperChar :: lineTokens line) ∧
  (∀ c, isBlank c = true ↔ c ∈ [' ', '\t', '\r', '\x0B', '\x0C']) ∧
  "abcdefghijklmnopqrstuvwxyz".toList.map upperChar = "ABCDEFGHIJKLMNOPQRSTUVWXYZ".toList ∧
  (∀ c, c ∉ "abcdefghijklmnopqrstuvwxyz".toList → upperChar c = c) ∧
  ∀ text, ∀ toks ∈ normalise text, toks ≠ [] ∧
    ∀ t ∈ toks, t ≠ [] ∧ ∀ c ∈ t, isBlank c = false ∧ c ≠ '\n' ∧ upperChar c = c

/-- 42 R144 (d), R152 (92 D13, D14; log entries 8, 9): which sources are refused. The line between admitted and other
characters outside ASCII, and among its separators 1C to 1F, is the model's reading of "letters" and of "exotic
whitespace, other line terminators" (93 U22). -/
def Obligations.SourcesOutsideSubsetRefused : Prop :=
  (∀ text, (∃ c ∈ text, isAdmitted c = false) → assembleChars text = .refused .characterNotAdmitted) ∧
  (∀ text, (∀ c ∈ text, isAdmitted c = true) → ¬ ((extractLabels (normalise text)).1.map Prod.fst).Nodup →
    assembleChars text = .refused .labelDefinedTwice) ∧
  (∀ text, (∀ c ∈ text, isAdmitted c = true) → ((extractLabels (normalise text)).1.map Prod.fst).Nodup →
    ∀ r, assembleChars text ≠ .refused r) ∧
  (∀ c : Char, c.toNat < 0x80 → (isAdmitted c = false ↔ 0x1C ≤ c.toNat ∧ c.toNat ≤ 0x1F)) ∧
  ([0xA3, 0xAD, 0xD7, 0x301, 0x20AC, 0x2192, 0x1F600].all fun n => isAdmitted (Char.ofNat n)) = true ∧
  ([0xE9, 0xDF, 0x3BB, 0x42F, 0x6F22, 0x85, 0xA0, 0x2028, 0x3000].all fun n => !isAdmitted (Char.ofNat n)) = true

/-- 42 R147, R148, R149, R150: pass 1, line by line. That a line is classified once, so that what a line of three tokens
leaves defines no second label, is the spec's choice (92 D15; log entry 10). -/
def Obligations.LabelExtractionByTokenCount : Prop :=
  ∀ lines : List (List Token),
    (extractLabels lines).2.length = lines.length ∧
    (∀ l k, (l, k) ∈ (extractLabels lines).1 → k < lines.length) ∧
    ∀ (k : Nat) toks, lines[k]? = some toks →
      (∀ l m x, toks = [l, m, x] →
        (∀ n, (n, k) ∈ (extractLabels lines).1 ↔ n = l) ∧ (extractLabels lines).2[k]? = some [m, x]) ∧
      (∀ l m, toks = [l, m] → isMnemonic l = false →
        (∀ n, (n, k) ∈ (extractLabels lines).1 ↔ n = l) ∧ (extractLabels lines).2[k]? = some [m]) ∧
      (∀ l m, toks = [l, m] → isMnemonic l = true →
        (∀ n, (n, k) ∉ (extractLabels lines).1) ∧ (extractLabels lines).2[k]? = some toks) ∧
      (toks.length = 1 ∨ 4 ≤ toks.length →
        (∀ n, (n, k) ∉ (extractLabels lines).1) ∧ (extractLabels lines).2[k]? = some toks)

/-- 42 R154: pass 2 replaces the last token of every stripped instruction, if it is a known label, by its address. -/
def Obligations.LabelSubstitutionOfLastToken : Prop :=
  (∀ labels front t, substituteLast labels (front ++ [t]) =
    front.map .word ++ [match labels.lookup t with | some a => .label a | none => .word t]) ∧
  ∀ text (k : Nat) toks, (extractLabels (normalise text)).2[k]? = some toks →
    (substituted text)[k]? = some (substituteLast (extractLabels (normalise text)).1 toks)

/-- 42 R141, R142, 30 R93: the eleven recognised names, of which `DAT` alone has no entry in the table. -/
def Obligations.RecognisedMnemonics : Prop :=
  (∀ t, isMnemonic t = true ↔ t ∈ ["ADD".toList, "SUB".toList, "STA".toList, "LDA".toList, "BRA".toList, "BRZ".toList,
    "BRP".toList, "INP".toList, "OUT".toList, "HLT".toList, "DAT".toList]) ∧
  ∀ t, (∃ n, mnemonicTable.lookup t = some n) ↔ isMnemonic t = true ∧ t ≠ "DAT".toList

/-- 42 R165 (92 D12; log entry 10): a literal is a non-empty string of the ten digits, read in base ten, leading zeros
ignored. -/
def Obligations.LiteralsAreDecimal : Prop :=
  (∀ t, literalValue t = none ↔ t = [] ∨ ∃ c ∈ t, c ∉ "0123456789".toList) ∧
  (∀ d, d < 10 → literalValue [Nat.digitChar d] = some d) ∧
  (∀ t n d, d < 10 → literalValue t = some n → literalValue (t ++ [Nat.digitChar d]) = some (n * 10 + d)) ∧
  ∀ t n, literalValue t = some n → literalValue ('0' :: t) = some n

/-- 42 R164: a `DAT` line gives the pair `(null, n)` of its operand's value, which the loader makes the data cell
`D(n)` (49 R273). -/
def Obligations.DatLineAssemblesToData : Prop :=
  (∀ t n, literalValue t = some n → encodeTokens [.word "DAT".toList, .word t] = .ok (Code.ofData n)) ∧
  (∀ a, encodeTokens [.word "DAT".toList, .label a] = .ok (Code.ofData a)) ∧
  ∀ x, (Code.ofData x).toCell = .ok (.data x)

/-- 42 R162, R163, R166 (the shapes outside the two listed sets by the spec's choice 92 D16; log entry 10): every name
with an entry is encoded by the same procedure for one token and for two. -/
def Obligations.TableEntriesEncodeLiterally : Prop :=
  (∀ t n, mnemonicTable.lookup t = some n →
    encodeTokens [.word t] = .ok (Code.ofPair ((n / 100 : Nat) : Int) ((n % 100 : Nat) : Int))) ∧
  ∀ t n x k, mnemonicTable.lookup t = some n → operandIs x k →
    encodeTokens [.word t, x] = .ok (Code.ofPair n k)

/-- 42 R167, R168 (that a degraded component is a mark and its launch refused is the spec's choice 92 D11; log entry 7):
a swallowed failure leaves no number, the component that did not fail follows the normal rule, and no list with such a
pair is loaded. -/
def Obligations.SwallowedFailuresLeaveMarks : Prop :=
  (∀ m, noEntry m → encodeTokens [m] = .ok ⟨.degraded, .unspecified⟩) ∧
  (∀ m x n, noEntry m → m ≠ .word "DAT".toList → operandIs x n → encodeTokens [m, x] = .ok ⟨.degraded, .value n⟩) ∧
  (∀ m x, noEntry m → m ≠ .word "DAT".toList → badOperand x → encodeTokens [m, x] = .ok ⟨.degraded, .degraded⟩) ∧
  (∀ t n x, mnemonicTable.lookup t = some n → badOperand x → encodeTokens [.word t, x] = .ok ⟨.value n, .degraded⟩) ∧
  (∀ x, badOperand x → encodeTokens [.word "DAT".toList, x] = .ok ⟨.null, .degraded⟩) ∧
  ∀ codes inputs c, c ∈ codes → carriesMark c →
    initializeMemory codes inputs Engine.fresh = .refused .degradedPair

/-- 42 R161, R167, R140, R170: only a line of four or more tokens ends an assembly; every other admitted source gives one
pair per non-empty line, the encoding of that line's instruction after pass 2. -/
def Obligations.AssemblyEndsOnlyOnLongLines : Prop :=
  ∀ text : List Char, text.all isAdmitted = true → (extractLabels (normalise text)).1.distinct = true →
    ((∃ toks ∈ normalise text, 4 ≤ toks.length) → assembleChars text = .fault .invalidInstructionFormat) ∧
    ((∀ toks ∈ normalise text, toks.length ≤ 3) →
      ∃ codes, assembleChars text = .next codes ∧ codes.length = (normalise text).length ∧
        ∀ (k : Nat) toks, (substituted text)[k]? = some toks →
          ∃ c, codes[k]? = some c ∧ encodeTokens toks = .ok c)

/-- 42 R171, 70 R356: a well-formed source assembles to one pair per line, loads, and puts no illegal opcode into
memory. -/
def Obligations.WellFormedSourceLoads : Prop :=
  ∀ text inputs, wellFormedSource text = true → (∀ v ∈ inputs, InThreeDigits v) →
    ∃ codes t, assembleChars text = .next codes ∧ codes.length = (normalise text).length ∧
      initializeMemory codes inputs Engine.fresh = .next t ∧
      ∀ a o b, a < 100 → Memory.cellAt t.state.mem a = .instr o b →
        ∃ i, decodeCell (.instr o b) = .ok i ∧ (∀ x, i ≠ .illegalOp4 x) ∧ ∀ x, i ≠ .illegalOp9 x

/-- 49 R279, R280, R281 (cells shown with their kind, 92 D22): the observers. -/
def Obligations.ObserversShowState : Prop :=
  ∀ s : State, isHalted s = s.halted ∧ outputQueueSnapshot s = s.outq ∧
    (stateSnapshot s).pc = s.pc ∧ (stateSnapshot s).accumulator = s.acc ∧
    (stateSnapshot s).inputQueue = s.inq ∧ (stateSnapshot s).outputQueue = s.outq ∧
    (stateSnapshot s).memory.length = 100 ∧
    (∀ a, a < 100 → (stateSnapshot s).memory[a]? = some (Memory.cellAt s.mem a)) ∧
    ∀ f, step s = .fault f → (isHalted f.left = true ↔ f.kind = .halt)
end

