-- ==== Sys2Proof/Laws/Decode.lean ====
section
/-! SUPPORT. What the decoder answers on a cell in its domain. -/

namespace Sys2Proof

/-- A cell in its domain decodes to a well-formed instruction, and is that instruction's cell. -/
theorem decodeCell_wf {c : MemCell} {i : Instr} (hc : c.wf = true) (h : decodeCell c = .ok i) :
    i.wf = true ∧ encodeCell i = c := by
  unfold decodeCell at h
  split at h <;> cases h <;> simp_all [MemCell.wf, Instr.wf, addressOk, encodeCell]

end Sys2Proof
end

