-- ==== Sys2Proof/Laws/State.lean ====
section
/-! SUPPORT. One lemma per field and register write, so that no proof unfolds a record update. -/

namespace Sys2Proof.Machine

@[simp] theorem State.setMem_mem (s : State) (m : Memory) : (s.setMem m).mem = m := rfl
@[simp] theorem State.setMem_acc (s : State) (m : Memory) : (s.setMem m).acc = s.acc := rfl
@[simp] theorem State.setMem_pc (s : State) (m : Memory) : (s.setMem m).pc = s.pc := rfl
@[simp] theorem State.setMem_ovf (s : State) (m : Memory) : (s.setMem m).ovf = s.ovf := rfl
@[simp] theorem State.setMem_halted (s : State) (m : Memory) : (s.setMem m).halted = s.halted := rfl
@[simp] theorem State.setMem_inq (s : State) (m : Memory) : (s.setMem m).inq = s.inq := rfl
@[simp] theorem State.setMem_outq (s : State) (m : Memory) : (s.setMem m).outq = s.outq := rfl

@[simp] theorem State.setAcc_mem (s : State) (v : Int) : (s.setAcc v).mem = s.mem := rfl
@[simp] theorem State.setAcc_acc (s : State) (v : Int) : (s.setAcc v).acc = v := rfl
@[simp] theorem State.setAcc_pc (s : State) (v : Int) : (s.setAcc v).pc = s.pc := rfl
@[simp] theorem State.setAcc_ovf (s : State) (v : Int) : (s.setAcc v).ovf = s.ovf := rfl
@[simp] theorem State.setAcc_halted (s : State) (v : Int) : (s.setAcc v).halted = s.halted := rfl
@[simp] theorem State.setAcc_inq (s : State) (v : Int) : (s.setAcc v).inq = s.inq := rfl
@[simp] theorem State.setAcc_outq (s : State) (v : Int) : (s.setAcc v).outq = s.outq := rfl

@[simp] theorem State.setPc_mem (s : State) (target : Nat) : (s.setPc target).mem = s.mem := rfl
@[simp] theorem State.setPc_acc (s : State) (target : Nat) : (s.setPc target).acc = s.acc := rfl
@[simp] theorem State.setPc_pc (s : State) (target : Nat) : (s.setPc target).pc = target := rfl
@[simp] theorem State.setPc_ovf (s : State) (target : Nat) : (s.setPc target).ovf = s.ovf := rfl
@[simp] theorem State.setPc_halted (s : State) (target : Nat) : (s.setPc target).halted = s.halted := rfl
@[simp] theorem State.setPc_inq (s : State) (target : Nat) : (s.setPc target).inq = s.inq := rfl
@[simp] theorem State.setPc_outq (s : State) (target : Nat) : (s.setPc target).outq = s.outq := rfl

@[simp] theorem State.setOvf_mem (s : State) (b : Bool) : (s.setOvf b).mem = s.mem := rfl
@[simp] theorem State.setOvf_acc (s : State) (b : Bool) : (s.setOvf b).acc = s.acc := rfl
@[simp] theorem State.setOvf_pc (s : State) (b : Bool) : (s.setOvf b).pc = s.pc := rfl
@[simp] theorem State.setOvf_ovf (s : State) (b : Bool) : (s.setOvf b).ovf = b := rfl
@[simp] theorem State.setOvf_halted (s : State) (b : Bool) : (s.setOvf b).halted = s.halted := rfl
@[simp] theorem State.setOvf_inq (s : State) (b : Bool) : (s.setOvf b).inq = s.inq := rfl
@[simp] theorem State.setOvf_outq (s : State) (b : Bool) : (s.setOvf b).outq = s.outq := rfl

@[simp] theorem State.setHalted_mem (s : State) (b : Bool) : (s.setHalted b).mem = s.mem := rfl
@[simp] theorem State.setHalted_acc (s : State) (b : Bool) : (s.setHalted b).acc = s.acc := rfl
@[simp] theorem State.setHalted_pc (s : State) (b : Bool) : (s.setHalted b).pc = s.pc := rfl
@[simp] theorem State.setHalted_ovf (s : State) (b : Bool) : (s.setHalted b).ovf = s.ovf := rfl
@[simp] theorem State.setHalted_halted (s : State) (b : Bool) : (s.setHalted b).halted = b := rfl
@[simp] theorem State.setHalted_inq (s : State) (b : Bool) : (s.setHalted b).inq = s.inq := rfl
@[simp] theorem State.setHalted_outq (s : State) (b : Bool) : (s.setHalted b).outq = s.outq := rfl

@[simp] theorem State.setInq_mem (s : State) (q : Queue) : (s.setInq q).mem = s.mem := rfl
@[simp] theorem State.setInq_acc (s : State) (q : Queue) : (s.setInq q).acc = s.acc := rfl
@[simp] theorem State.setInq_pc (s : State) (q : Queue) : (s.setInq q).pc = s.pc := rfl
@[simp] theorem State.setInq_ovf (s : State) (q : Queue) : (s.setInq q).ovf = s.ovf := rfl
@[simp] theorem State.setInq_halted (s : State) (q : Queue) : (s.setInq q).halted = s.halted := rfl
@[simp] theorem State.setInq_inq (s : State) (q : Queue) : (s.setInq q).inq = q := rfl
@[simp] theorem State.setInq_outq (s : State) (q : Queue) : (s.setInq q).outq = s.outq := rfl

@[simp] theorem State.setOutq_mem (s : State) (q : Queue) : (s.setOutq q).mem = s.mem := rfl
@[simp] theorem State.setOutq_acc (s : State) (q : Queue) : (s.setOutq q).acc = s.acc := rfl
@[simp] theorem State.setOutq_pc (s : State) (q : Queue) : (s.setOutq q).pc = s.pc := rfl
@[simp] theorem State.setOutq_ovf (s : State) (q : Queue) : (s.setOutq q).ovf = s.ovf := rfl
@[simp] theorem State.setOutq_halted (s : State) (q : Queue) : (s.setOutq q).halted = s.halted := rfl
@[simp] theorem State.setOutq_inq (s : State) (q : Queue) : (s.setOutq q).inq = s.inq := rfl
@[simp] theorem State.setOutq_outq (s : State) (q : Queue) : (s.setOutq q).outq = q := rfl

@[simp] theorem State.advancePc_mem (s : State) : s.advancePc.mem = s.mem := rfl
@[simp] theorem State.advancePc_acc (s : State) : s.advancePc.acc = s.acc := rfl
@[simp] theorem State.advancePc_pc (s : State) : s.advancePc.pc = s.pc + 1 := rfl
@[simp] theorem State.advancePc_ovf (s : State) : s.advancePc.ovf = s.ovf := rfl
@[simp] theorem State.advancePc_halted (s : State) : s.advancePc.halted = s.halted := rfl
@[simp] theorem State.advancePc_inq (s : State) : s.advancePc.inq = s.inq := rfl
@[simp] theorem State.advancePc_outq (s : State) : s.advancePc.outq = s.outq := rfl

@[simp] theorem State.reset_mem : State.reset.mem = [] := rfl
@[simp] theorem State.reset_acc : State.reset.acc = 0 := rfl
@[simp] theorem State.reset_pc : State.reset.pc = 0 := rfl
@[simp] theorem State.reset_ovf : State.reset.ovf = false := rfl
@[simp] theorem State.reset_halted : State.reset.halted = false := rfl
@[simp] theorem State.reset_inq : State.reset.inq = [] := rfl
@[simp] theorem State.reset_outq : State.reset.outq = [] := rfl

@[simp] theorem Fault.left_outOfBounds (a : Nat) (l : State) : (Fault.outOfBounds a l).left = l := rfl
@[simp] theorem Fault.left_halt (l : State) : (Fault.halt l).left = l := rfl
@[simp] theorem Fault.left_invalidOpcode (o a : Nat) (l : State) : (Fault.invalidOpcode o a l).left = l := rfl
@[simp] theorem Fault.left_emptyQueue (l : State) : (Fault.emptyQueue l).left = l := rfl

@[simp] theorem Fault.kind_outOfBounds (a : Nat) (l : State) : (Fault.outOfBounds a l).kind = .outOfBounds := rfl
@[simp] theorem Fault.kind_halt (l : State) : (Fault.halt l).kind = .halt := rfl
@[simp] theorem Fault.kind_invalidOpcode (o a : Nat) (l : State) : (Fault.invalidOpcode o a l).kind = .invalidOpcode := rfl
@[simp] theorem Fault.kind_emptyQueue (l : State) : (Fault.emptyQueue l).kind = .emptyQueue := rfl

end Sys2Proof.Machine
end

