-- ==== Sys2Proof/Laws/Memory.lean ====
section
/-! SUPPORT. Memory: a read after a write, the cells a write leaves alone, and that every memory operation keeps the
canonical form and the cells' domain. -/

namespace Sys2Proof.Machine

theorem Memory.cellAt_erase_other {a b : Nat} (h : b ≠ a) (m : Memory) :
    Memory.cellAt (Memory.erase m a) b = Memory.cellAt m b := by
  induction m with
  | nil => rfl
  | cons e rest ih =>
    obtain ⟨k, c⟩ := e
    simp only [Memory.erase, List.filter_cons] at *
    by_cases hk : k = a
    · subst hk
      simp [Memory.cellAt, ih, Ne.symm h]
    · simp [hk, Memory.cellAt, ih]

theorem Memory.cellAt_erase_same (m : Memory) (a : Nat) :
    Memory.cellAt (Memory.erase m a) a = Config.initCell := by
  induction m with
  | nil => rfl
  | cons e rest ih =>
    obtain ⟨k, c⟩ := e
    simp only [Memory.erase, List.filter_cons] at *
    by_cases hk : k = a
    · simp [hk, ih]
    · simp [hk, Memory.cellAt, ih]

theorem Memory.cellAt_insertSorted_other {a b : Nat} (h : b ≠ a) (c : MemCell) (m : Memory) :
    Memory.cellAt (Memory.insertSorted a c m) b = Memory.cellAt m b := by
  induction m with
  | nil => simp [Memory.insertSorted, Memory.cellAt, Ne.symm h]
  | cons e rest ih =>
    obtain ⟨k, d⟩ := e
    by_cases hk : a < k
    · simp [Memory.insertSorted, hk, Memory.cellAt, Ne.symm h]
    · simp [Memory.insertSorted, hk, Memory.cellAt, ih]

/-- Inserting where the address is not listed: a read there gives the new cell. -/
theorem Memory.cellAt_insertSorted_same (a : Nat) (c : MemCell) (m : Memory) (h : ∀ e ∈ m, e.1 ≠ a) :
    Memory.cellAt (Memory.insertSorted a c m) a = c := by
  induction m with
  | nil => simp [Memory.insertSorted, Memory.cellAt]
  | cons e rest ih =>
    obtain ⟨k, d⟩ := e
    by_cases hk : a < k
    · simp [Memory.insertSorted, hk, Memory.cellAt]
    · have hne : k ≠ a := h (k, d) (by simp)
      simp [Memory.insertSorted, hk, Memory.cellAt, hne, ih fun e he => h e (by simp [he])]

theorem Memory.erase_ne (m : Memory) (a : Nat) : ∀ e ∈ Memory.erase m a, e.1 ≠ a := by
  simp [Memory.erase]

/-- A read after a write to the same address gives the cell written (20 R58 (d)). -/
@[simp] theorem Memory.cellAt_put_same (m : Memory) (a : Nat) (c : MemCell) :
    Memory.cellAt (Memory.put m a c) a = c := by
  unfold Memory.put
  split
  · rename_i h
    rw [Memory.cellAt_erase_same, h]
  · exact Memory.cellAt_insertSorted_same a c _ (Memory.erase_ne m a)

/-- A write leaves every other cell alone (20 R55). -/
theorem Memory.cellAt_put_other {a b : Nat} (h : b ≠ a) (m : Memory) (c : MemCell) :
    Memory.cellAt (Memory.put m a c) b = Memory.cellAt m b := by
  unfold Memory.put
  split
  · exact Memory.cellAt_erase_other h m
  · rw [Memory.cellAt_insertSorted_other h, Memory.cellAt_erase_other h]

theorem Memory.risingFrom_mono {lo lo' : Nat} (h : lo' ≤ lo) (m : Memory) (hm : Memory.risingFrom lo m = true) :
    Memory.risingFrom lo' m = true := by
  cases m with
  | nil => rfl
  | cons e rest =>
    obtain ⟨k, c⟩ := e
    simp only [Memory.risingFrom, Bool.and_eq_true, decide_eq_true_eq] at *
    exact ⟨by omega, hm.2⟩

theorem Memory.risingFrom_erase (m : Memory) (a lo : Nat) (hm : Memory.risingFrom lo m = true) :
    Memory.risingFrom lo (Memory.erase m a) = true := by
  induction m generalizing lo with
  | nil => rfl
  | cons e rest ih =>
    obtain ⟨k, c⟩ := e
    simp only [Memory.risingFrom, Bool.and_eq_true, decide_eq_true_eq] at hm
    have hrest := ih (k + 1) hm.2
    simp only [Memory.erase, List.filter_cons] at *
    by_cases hk : k = a
    · simpa [hk] using Memory.risingFrom_mono (by omega) _ hrest
    · simp [hk, Memory.risingFrom, hm.1, hrest]

theorem Memory.risingFrom_insertSorted (m : Memory) (a lo : Nat) (c : MemCell) (hlo : lo ≤ a)
    (hne : ∀ e ∈ m, e.1 ≠ a) (hm : Memory.risingFrom lo m = true) :
    Memory.risingFrom lo (Memory.insertSorted a c m) = true := by
  induction m generalizing lo with
  | nil => simp [Memory.insertSorted, Memory.risingFrom, hlo]
  | cons e rest ih =>
    obtain ⟨k, d⟩ := e
    simp only [Memory.risingFrom, Bool.and_eq_true, decide_eq_true_eq] at hm
    have hk' : k ≠ a := hne (k, d) (by simp)
    by_cases hk : a < k
    · simp only [Memory.insertSorted, hk, if_true, Memory.risingFrom, Bool.and_eq_true, decide_eq_true_eq]
      exact ⟨hlo, by omega, hm.2⟩
    · simp only [Memory.insertSorted, hk, if_false, Memory.risingFrom, Bool.and_eq_true, decide_eq_true_eq]
      exact ⟨hm.1, ih (k + 1) (by omega) (fun e he => hne e (by simp [he])) hm.2⟩

theorem Memory.mem_insertSorted (m : Memory) (a : Nat) (c : MemCell) (e : Nat × MemCell)
    (he : e ∈ Memory.insertSorted a c m) : e = (a, c) ∨ e ∈ m := by
  induction m with
  | nil => simpa [Memory.insertSorted] using he
  | cons x rest ih =>
    obtain ⟨k, d⟩ := x
    by_cases hk : a < k
    · simpa [Memory.insertSorted, hk] using he
    · simp only [Memory.insertSorted, hk, if_false, List.mem_cons] at he
      rcases he with rfl | he
      · simp
      · rcases ih he with h | h <;> simp [h]

/-- Every entry after a write is the new one, which is not the default, or an old one. -/
theorem Memory.mem_put (m : Memory) (a : Nat) (c : MemCell) (e : Nat × MemCell) (he : e ∈ Memory.put m a c) :
    (e = (a, c) ∧ c ≠ Config.initCell) ∨ e ∈ m := by
  unfold Memory.put at he
  split at he
  · exact .inr (List.mem_filter.mp he).1
  · rename_i h
    rcases Memory.mem_insertSorted _ _ _ _ he with h1 | h1
    · exact .inl ⟨h1, h⟩
    · exact .inr (List.mem_filter.mp h1).1

/-- The one memory operation that changes memory keeps the canonical form. -/
theorem Memory.put_wf (m : Memory) (a : Nat) (c : MemCell) (ha : a < Config.memSize) (hm : Memory.wf m = true) :
    Memory.wf (Memory.put m a c) = true := by
  simp only [Memory.wf, Bool.and_eq_true, List.all_eq_true, decide_eq_true_eq, bne_iff_ne] at *
  refine ⟨?_, fun e he => ?_⟩
  · unfold Memory.put
    have herase := Memory.risingFrom_erase m a 0 hm.1
    split
    · exact herase
    · exact Memory.risingFrom_insertSorted _ a 0 c (Nat.zero_le _) (Memory.erase_ne m a) herase
  · rcases Memory.mem_put m a c e he with ⟨rfl, hc⟩ | h
    · exact ⟨ha, hc⟩
    · exact hm.2 e h

theorem Memory.reset_wf : Memory.wf State.reset.mem = true := rfl

theorem Memory.put_cellsOk (m : Memory) (a : Nat) (c : MemCell) (hc : c.wf = true)
    (hm : Memory.cellsOk m = true) : Memory.cellsOk (Memory.put m a c) = true := by
  simp only [Memory.cellsOk, List.all_eq_true] at *
  intro e he
  rcases Memory.mem_put m a c e he with ⟨rfl, -⟩ | h
  · exact hc
  · exact hm e h

/-- A memory whose listed cells are in their domain reads in domain everywhere. -/
theorem Memory.cellAt_ok (m : Memory) (a : Nat) (hm : Memory.cellsOk m = true) :
    (Memory.cellAt m a).wf = true := by
  induction m with
  | nil => rfl
  | cons e rest ih =>
    obtain ⟨k, c⟩ := e
    simp only [Memory.cellsOk, List.all_cons, Bool.and_eq_true] at hm ih
    unfold Memory.cellAt
    split
    · exact hm.1
    · exact ih hm.2

/-- The content of a cell in its domain has three digits (40 R114). -/
theorem MemCell.content_range {c : MemCell} (h : c.wf = true) : InThreeDigits c.content := by
  cases c with
  | data v => simpa [MemCell.wf, MemCell.content] using h
  | instr o a =>
    simp only [MemCell.wf, addressOk, Config.opcodeMax, Config.addressMax, Bool.and_eq_true, decide_eq_true_eq] at h
    simp only [InThreeDigits, MemCell.content]
    omega

end Sys2Proof.Machine
end

