-- ==== Sys2Proof/Laws/Ops.lean ====
section
/-! SUPPORT. For each shared operation, once, everything it can do. -/

namespace Sys2Proof.Machine

theorem inBounds_iff (a : Nat) : inBounds a = true ↔ a < 100 := by simp [inBounds, Config.memSize]

@[simp] theorem raise_eq (k : State → Fault) (s : State) : raise k s = .fault (k s) := rfl

theorem memFetch_of_lt {a : Nat} (h : a < 100) (s : State) : memFetch s a = some (Memory.cellAt s.mem a) := by
  simp [memFetch, (inBounds_iff a).mpr h]

theorem memFetch_of_ge {a : Nat} (h : 100 ≤ a) (s : State) : memFetch s a = none := by
  simp [memFetch, inBounds, Config.memSize]; omega

theorem memRead_of_lt {a : Nat} (h : a < 100) (s : State) :
    memRead s a = some (Memory.cellAt s.mem a).content := by
  simp [memRead, memFetch_of_lt h]

theorem memRead_of_ge {a : Nat} (h : 100 ≤ a) (s : State) : memRead s a = none := by
  simp [memRead, memFetch_of_ge h]

theorem memWrite_of_lt {a : Nat} (h : a < 100) (v : Int) (s : State) :
    memWrite s a v = some (s.setMem (Memory.put s.mem a (.data v))) := by
  simp [memWrite, (inBounds_iff a).mpr h, MemCell.assign]

theorem memWrite_of_ge {a : Nat} (h : 100 ≤ a) (v : Int) (s : State) : memWrite s a v = none := by
  simp [memWrite, inBounds, Config.memSize]; omega

theorem fetch_of_lt {s : State} (h : s.pc < 100) : fetch s = some (Memory.cellAt s.mem s.pc, s.advancePc) := by
  simp [fetch, memFetch_of_lt h]

theorem fetch_of_ge {s : State} (h : 100 ≤ s.pc) : fetch s = none := by
  simp [fetch, memFetch_of_ge h]

theorem withOperand_of_lt {a : Nat} (h : a < 100) (s : State) (use : Int → Host.Outcome State Fault Refusal) :
    withOperand a s use = use (Memory.cellAt s.mem a).content := by
  simp [withOperand, memRead_of_lt h]

theorem withOperand_of_ge {a : Nat} (h : 100 ≤ a) (s : State) (use : Int → Host.Outcome State Fault Refusal) :
    withOperand a s use = .fault (.outOfBounds a s) := by
  simp [withOperand, memRead_of_ge h]

theorem storeOperand_of_lt {a : Nat} (h : a < 100) (v : Int) (s : State) :
    storeOperand a v s = .next (s.setMem (Memory.put s.mem a (.data v))) := by
  simp [storeOperand, memWrite_of_lt h]

theorem storeOperand_of_ge {a : Nat} (h : 100 ≤ a) (v : Int) (s : State) :
    storeOperand a v s = .fault (.outOfBounds a s) := by
  simp [storeOperand, memWrite_of_ge h]

/-- The test on a reduced result never succeeds (45 R231 (b)). -/
theorem fallsOutside_reduced (r : Int) : fallsOutside (r % Config.modulus) = false := by
  simp only [fallsOutside, Config.modulus, Config.contentMax, Bool.or_eq_false_iff, decide_eq_false_iff_not]
  omega

/-- Write-back of ADD and SUB is the reduced result in the accumulator and nothing else. -/
theorem accumulate_eq (r : Int) (s : State) : accumulate r s = s.setAcc (r % 1000) := by
  simp [accumulate, noteOverflow, fallsOutside_reduced]

theorem zeroCondition_iff (s : State) : zeroCondition s = true ↔ s.acc = 0 ∧ s.ovf = false := by
  simp [zeroCondition]

theorem positiveCondition_iff (s : State) : positiveCondition s = true ↔ s.ovf = false := by
  simp [positiveCondition]

/-- `dequeue` answers the head and the rest, or fails on the empty queue. -/
theorem dequeue_cons (v : Int) (rest : Queue) : dequeue (v :: rest) = .ok (v, rest) := rfl
theorem dequeue_nil : dequeue [] = .error .emptyQueue := rfl

end Sys2Proof.Machine
end

