-- ==== Sys2Proof/Laws/PerInstr.lean ====
section
/-! SUPPORT. Statements about every instruction as syntax, one lemma per constructor. -/

namespace Sys2Proof.Laws.PackedRange

/-- `packed_min` and `packed_max` of the instruction's row in spec/opcode_table.json (30 R84, R95). -/
def rowRange : Instr → Int × Int
  | .hlt _ => (0, 99)
  | .add _ => (100, 199)
  | .sub _ => (200, 299)
  | .sta _ => (300, 399)
  | .lda _ => (500, 599)
  | .bra _ => (600, 699)
  | .brz _ => (700, 799)
  | .brp _ => (800, 899)
  | .inp => (901, 901)
  | .out => (902, 902)
  | .illegalOp4 _ => (400, 499)
  | .illegalOp9 _ => (900, 999)
  | .dat _ => (0, 999)

/-- The packed form of a well-formed instruction lies in the range its row gives. -/
def Statement (i : Instr) : Prop :=
  i.wf = true → (rowRange i).1 ≤ (encodeCell i).content ∧ (encodeCell i).content ≤ (rowRange i).2

theorem of_operand {a : Nat} (h : addressOk a = true) : a ≤ 99 := by simpa [addressOk] using h

theorem hlt (addr : Nat) : Statement (.hlt addr) := fun h => by
  have := of_operand h; simp only [rowRange, encodeCell, MemCell.content]; omega
theorem add (addr : Nat) : Statement (.add addr) := fun h => by
  have := of_operand h; simp only [rowRange, encodeCell, MemCell.content]; omega
theorem sub (addr : Nat) : Statement (.sub addr) := fun h => by
  have := of_operand h; simp only [rowRange, encodeCell, MemCell.content]; omega
theorem sta (addr : Nat) : Statement (.sta addr) := fun h => by
  have := of_operand h; simp only [rowRange, encodeCell, MemCell.content]; omega
theorem lda (addr : Nat) : Statement (.lda addr) := fun h => by
  have := of_operand h; simp only [rowRange, encodeCell, MemCell.content]; omega
theorem bra (addr : Nat) : Statement (.bra addr) := fun h => by
  have := of_operand h; simp only [rowRange, encodeCell, MemCell.content]; omega
theorem brz (addr : Nat) : Statement (.brz addr) := fun h => by
  have := of_operand h; simp only [rowRange, encodeCell, MemCell.content]; omega
theorem brp (addr : Nat) : Statement (.brp addr) := fun h => by
  have := of_operand h; simp only [rowRange, encodeCell, MemCell.content]; omega
theorem inp : Statement .inp := fun _ => by decide
theorem out : Statement .out := fun _ => by decide
theorem illegalOp4 (addr : Nat) : Statement (.illegalOp4 addr) := fun h => by
  have := of_operand h; simp only [rowRange, encodeCell, MemCell.content]; omega
theorem illegalOp9 (addr : Nat) : Statement (.illegalOp9 addr) := fun h => by
  simp only [Instr.wf, Bool.and_eq_true] at h
  have := of_operand h.1.1; simp only [rowRange, encodeCell, MemCell.content]; omega
theorem dat (content : Int) : Statement (.dat content) := fun h => by
  simpa [Instr.wf, rowRange, encodeCell, MemCell.content] using h

end Sys2Proof.Laws.PackedRange
end

