-- ==== Sys2Proof/Laws/Step.lean ====
section
/-! SUPPORT. What `exec`, `cycle` and `step` can do, once; later proofs cite these and do not unfold the machine. -/

namespace Sys2Proof.Machine

/-- Everything an instruction does when it completes, as one next state per shape. -/
theorem exec_next_cases {i : Instr} {s t : State} (h : exec i s = .next t) :
    (∃ a, i = .hlt a ∧ t = s.setHalted true) ∨
    (∃ a, i = .add a ∧ a < 100 ∧ t = s.setAcc ((s.acc + (Memory.cellAt s.mem a).content) % 1000)) ∨
    (∃ a, i = .sub a ∧ a < 100 ∧ t = s.setAcc ((s.acc - (Memory.cellAt s.mem a).content) % 1000)) ∨
    (∃ a, i = .sta a ∧ a < 100 ∧ t = s.setMem (Memory.put s.mem a (.data s.acc))) ∨
    (∃ a, i = .lda a ∧ a < 100 ∧ t = s.setAcc (Memory.cellAt s.mem a).content) ∨
    (∃ a, i = .bra a ∧ t = s.setPc a) ∨
    (∃ a, i = .brz a ∧ t = if zeroCondition s then s.setPc a else s) ∨
    (∃ a, i = .brp a ∧ t = if positiveCondition s then s.setPc a else s) ∨
    (∃ v rest, i = .inp ∧ s.inq = v :: rest ∧ t = (s.setInq rest).setAcc v) ∨
    (i = .out ∧ t = s.setOutq (s.outq ++ [s.acc])) := by
  cases i with
  | hlt a => simp [exec, execHlt] at h; subst h; simp
  | add a =>
    rcases Nat.lt_or_ge a 100 with ha | ha
    · simp [exec, execAdd, withOperand_of_lt ha, accumulate_eq] at h; subst h; simp [ha]
    · simp [exec, execAdd, withOperand_of_ge ha] at h
  | sub a =>
    rcases Nat.lt_or_ge a 100 with ha | ha
    · simp [exec, execSub, withOperand_of_lt ha, accumulate_eq] at h; subst h; simp [ha]
    · simp [exec, execSub, withOperand_of_ge ha] at h
  | sta a =>
    rcases Nat.lt_or_ge a 100 with ha | ha
    · simp [exec, execSta, storeOperand_of_lt ha] at h; subst h; simp [ha]
    · simp [exec, execSta, storeOperand_of_ge ha] at h
  | lda a =>
    rcases Nat.lt_or_ge a 100 with ha | ha
    · simp [exec, execLda, withOperand_of_lt ha] at h; subst h; simp [ha]
    · simp [exec, execLda, withOperand_of_ge ha] at h
  | bra a => simp [exec, execBra, branchWhen] at h; subst h; simp
  | brz a => simp [exec, execBrz, branchWhen] at h; subst h; simp
  | brp a => simp [exec, execBrp, branchWhen] at h; subst h; simp
  | inp =>
    cases hq : s.inq with
    | nil => simp [exec, execInp, hq, dequeue] at h
    | cons v rest => simp [exec, execInp, hq, dequeue] at h; subst h; simp
  | out => simp [exec, execOut, enqueue] at h; subst h; simp
  | illegalOp4 a => simp [exec, execIllegalOp4] at h
  | illegalOp9 a => simp [exec, execIllegalOp9] at h
  | dat v => simp [exec, execDat] at h

/-- Every failure an instruction can report, with the state it leaves. -/
theorem exec_fault_cases {i : Instr} {s : State} {f : Fault} (h : exec i s = .fault f) :
    (∃ a, (i = .add a ∨ i = .sub a ∨ i = .sta a ∨ i = .lda a) ∧ 100 ≤ a ∧ f = .outOfBounds a s) ∨
    (i = .inp ∧ s.inq = [] ∧ f = .emptyQueue s) ∨
    (∃ a, i = .illegalOp4 a ∧ f = .invalidOpcode 4 a s) ∨
    (∃ a, i = .illegalOp9 a ∧ f = .invalidOpcode 9 a s) ∨
    (∃ v, i = .dat v ∧ f = .halt (s.setHalted true)) := by
  cases i with
  | hlt a => simp [exec, execHlt] at h
  | add a =>
    rcases Nat.lt_or_ge a 100 with ha | ha
    · simp [exec, execAdd, withOperand_of_lt ha] at h
    · simp [exec, execAdd, withOperand_of_ge ha] at h; subst h; simp [ha]
  | sub a =>
    rcases Nat.lt_or_ge a 100 with ha | ha
    · simp [exec, execSub, withOperand_of_lt ha] at h
    · simp [exec, execSub, withOperand_of_ge ha] at h; subst h; simp [ha]
  | sta a =>
    rcases Nat.lt_or_ge a 100 with ha | ha
    · simp [exec, execSta, storeOperand_of_lt ha] at h
    · simp [exec, execSta, storeOperand_of_ge ha] at h; subst h; simp [ha]
  | lda a =>
    rcases Nat.lt_or_ge a 100 with ha | ha
    · simp [exec, execLda, withOperand_of_lt ha] at h
    · simp [exec, execLda, withOperand_of_ge ha] at h; subst h; simp [ha]
  | bra a => simp [exec, execBra, branchWhen] at h
  | brz a => simp [exec, execBrz, branchWhen] at h
  | brp a => simp [exec, execBrp, branchWhen] at h
  | inp =>
    cases hq : s.inq with
    | nil => simp [exec, execInp, hq, dequeue] at h; subst h; simp
    | cons v rest => simp [exec, execInp, hq, dequeue] at h
  | out => simp [exec, execOut] at h
  | illegalOp4 a => simp [exec, execIllegalOp4] at h; subst h; simp
  | illegalOp9 a => simp [exec, execIllegalOp9] at h; subst h; simp
  | dat v => simp [exec, execDat] at h; subst h; simp

/-- A cell without a row holds an opcode of two or more digits. -/
theorem decodeCell_error {c : MemCell} {r : CellReject} (h : decodeCell c = .error r) :
    ∃ o a, c = .instr o a ∧ 9 < o ∧ r = .opcodeHasNoRow o a := by
  unfold decodeCell at h
  split at h <;> simp_all
  omega

theorem cycle_of_ge {s : State} (h : 100 ≤ s.pc) : cycle s = .fault (.outOfBounds s.pc s) := by
  simp [cycle, fetch_of_ge h]

theorem cycle_of_decoded {s : State} {i : Instr} (h : s.pc < 100)
    (hi : decodeCell (Memory.cellAt s.mem s.pc) = .ok i) : cycle s = exec i s.advancePc := by
  simp [cycle, fetch_of_lt h, hi]

theorem cycle_of_undecoded {s : State} {r : CellReject} (h : s.pc < 100)
    (hr : decodeCell (Memory.cellAt s.mem s.pc) = .error r) : cycle s = raiseUndecoded r s.advancePc := by
  simp [cycle, fetch_of_lt h, hr]

/-- Whatever a cycle answers, it fetched outside memory, met an opcode without a row, or ran one instruction. -/
theorem cycle_cases (s : State) :
    (100 ≤ s.pc ∧ cycle s = .fault (.outOfBounds s.pc s)) ∨
    (∃ o a, s.pc < 100 ∧ Memory.cellAt s.mem s.pc = .instr o a ∧ 9 < o ∧
      cycle s = .fault (.invalidOpcode o a s.advancePc)) ∨
    (∃ i, s.pc < 100 ∧ decodeCell (Memory.cellAt s.mem s.pc) = .ok i ∧ cycle s = exec i s.advancePc) := by
  rcases Nat.lt_or_ge s.pc 100 with hpc | hpc
  · right
    cases hd : decodeCell (Memory.cellAt s.mem s.pc) with
    | error r =>
      obtain ⟨o, a, hc, ho, rfl⟩ := decodeCell_error hd
      exact .inl ⟨o, a, hpc, hc, ho, by rw [cycle_of_undecoded hpc hd]; rfl⟩
    | ok i => exact .inr ⟨i, hpc, rfl, cycle_of_decoded hpc hd⟩
  · exact .inl ⟨hpc, cycle_of_ge hpc⟩

theorem step_of_halted {s : State} (h : s.halted = true) : step s = .next s := by simp [step, h]

theorem step_of_running {s : State} (h : s.halted = false) : step s = cycle s := by simp [step, h]

/-- A completed step is the no-op of a halted machine, or one decoded instruction run on a running one. -/
theorem step_next_cases {s t : State} (h : step s = .next t) :
    (s.halted = true ∧ t = s) ∨
    (s.halted = false ∧ ∃ i, s.pc < 100 ∧ decodeCell (Memory.cellAt s.mem s.pc) = .ok i ∧
      exec i s.advancePc = .next t) := by
  cases hh : s.halted with
  | true =>
    rw [step_of_halted hh] at h
    exact .inl ⟨rfl, by cases h; rfl⟩
  | false =>
    rw [step_of_running hh] at h
    rcases cycle_cases s with ⟨_, hc⟩ | ⟨_, _, _, _, _, hc⟩ | ⟨i, hp, hd, hc⟩
    · simp [hc] at h
    · simp [hc] at h
    · exact .inr ⟨rfl, i, hp, hd, hc ▸ h⟩

/-- A failed step is a failed cycle of a running machine. -/
theorem step_fault_cases {s : State} {f : Fault} (h : step s = .fault f) :
    s.halted = false ∧
    ((100 ≤ s.pc ∧ f = .outOfBounds s.pc s) ∨
     (∃ o a, s.pc < 100 ∧ Memory.cellAt s.mem s.pc = .instr o a ∧ 9 < o ∧ f = .invalidOpcode o a s.advancePc) ∨
     (∃ i, s.pc < 100 ∧ decodeCell (Memory.cellAt s.mem s.pc) = .ok i ∧ exec i s.advancePc = .fault f)) := by
  cases hh : s.halted with
  | true => simp [step_of_halted hh] at h
  | false =>
    rw [step_of_running hh] at h
    refine ⟨rfl, ?_⟩
    rcases cycle_cases s with ⟨hp, hc⟩ | ⟨o, a, hp, hm, ho, hc⟩ | ⟨i, hp, hd, hc⟩
    · exact .inl ⟨hp, by rw [hc] at h; cases h; rfl⟩
    · exact .inr (.inl ⟨o, a, hp, hm, ho, by rw [hc] at h; cases h; rfl⟩)
    · exact .inr (.inr ⟨i, hp, hd, hc ▸ h⟩)

end Sys2Proof.Machine
end

