-- ==== Sys2Proof/Laws/Run.lean ====
section
/-! SUPPORT. Runs and loads: the induction over steps packaged once, that a store, the loader and a placed word keep
memory's canonical form, and what an accepted load leaves. -/

namespace Sys2Proof.Machine

/-- A property that every step keeps holds along every run. -/
theorem stepMany_keeps {P : State → Prop} (h : ∀ s, P s → keeps P (step s)) (n : Nat) (s : State) (hs : P s) :
    keeps P (stepMany n s) := by
  induction n generalizing s with
  | zero => exact hs
  | succ n ih =>
    have hstep := h s hs
    simp only [stepMany, stepOnce]
    cases hh : step s with
    | next t => rw [hh] at hstep; exact ih t hstep
    | fault f => rw [hh] at hstep; exact hstep
    | refused r => rw [hh] at hstep; exact hstep

theorem stepMany_of_halted {s : State} (h : s.halted = true) (n : Nat) : stepMany n s = .next s := by
  induction n with
  | zero => rfl
  | succ n ih => simp [stepMany, stepOnce, step_of_halted h, ih]

theorem runToHalt_of_halted {s : State} (h : s.halted = true) (n : Nat) : runToHalt n s = .halted s := by
  cases n <;> simp [runToHalt, h]

theorem memWrite_wf {s t : State} {a : Nat} {v : Int} (h : memWrite s a v = some t) (hm : Memory.wf s.mem = true) :
    Memory.wf t.mem = true := by
  rcases Nat.lt_or_ge a 100 with ha | ha
  · rw [memWrite_of_lt ha] at h
    cases h
    exact Memory.put_wf _ _ _ ha hm
  · simp [memWrite_of_ge ha] at h

theorem loadCells_wf (codes : List Code) (first : Nat) (m m' : Memory) (hlen : first + codes.length ≤ 100)
    (h : loadCells first codes m = .ok m') (hm : Memory.wf m = true) : Memory.wf m' = true := by
  induction codes generalizing first m with
  | nil => simp [loadCells] at h; exact h ▸ hm
  | cons c rest ih =>
    simp only [List.length_cons] at hlen
    simp only [loadCells] at h
    split at h
    · exact ih (first + 1) _ (by omega) h (Memory.put_wf _ _ _ (by simp; omega) hm)
    · cases h

theorem withFetchWord_wf (s : State) (nbits w : Nat) (hm : Memory.wf s.mem = true) :
    Memory.wf (s.withFetchWord nbits w).mem = true := by
  unfold State.withFetchWord
  split
  · split
    · rename_i hb
      exact Memory.put_wf _ _ _ ((inBounds_iff _).mp hb) hm
    · exact hm
  · exact hm

/-- The loader's enqueueing keeps the list order of the input values (49 R273). -/
theorem foldl_enqueue (q inputs : Queue) : inputs.foldl enqueue q = q ++ inputs := by
  induction inputs generalizing q with
  | nil => simp
  | cons v rest ih => simp [ih, enqueue]

@[simp] theorem Engine.fresh_state : Engine.fresh.state = State.reset := rfl
@[simp] theorem Engine.fresh_loaded : Engine.fresh.loaded = false := rfl

/-- Everything an accepted load can do: it is the machine's first call, its premises hold, and it leaves the reset state
with the pairs' cells and the input values (49 R273 to R277). -/
theorem initializeMemory_next {codes : List Code} {inputs : List Int} {e t : Engine}
    (h : initializeMemory codes inputs e = .next t) :
    e = Engine.fresh ∧ codes.any Code.isDegraded = false ∧ codes.all Code.dataInRange = true ∧
      (inputs.all fun v => decide (InThreeDigits v)) = true ∧ codes.length ≤ 100 ∧
      ∃ m, loadCells 0 codes [] = .ok m ∧ t = ⟨{ State.reset with mem := m, inq := inputs }, true⟩ := by
  simp only [initializeMemory] at h
  split at h
  · cases h
  rename_i fresh
  obtain rfl := of_not_not fresh
  split at h
  · cases h
  split at h
  · cases h
  split at h
  · cases h
  split at h
  · cases h
  split at h
  · cases h
  rename_i hd hr hi hl _ m hm
  cases h
  exact ⟨rfl, by simpa using hd, by simpa using hr, by simpa using hi, by simpa using hl, m, hm,
    by rw [foldl_enqueue]; rfl⟩

end Sys2Proof.Machine
end

