-- ==== Sys2Proof/Laws/Safety.lean ====
section
/-! SUPPORT. The invariant and its test on a concrete state are the same. -/

namespace Sys2Proof.Machine

theorem State.invB_iff (s : State) : s.invB = true ↔ s.Inv := by
  constructor
  · intro h
    simp only [State.invB, Bool.and_eq_true, decide_eq_true_eq, Bool.not_eq_true'] at h
    obtain ⟨⟨⟨⟨⟨⟨h1, h2⟩, h3⟩, h4⟩, h5⟩, h6⟩, h7⟩ := h
    exact ⟨h1, h2, h3, h4, h5, h6, h7⟩
  · rintro ⟨h1, h2, h3, h4, h5, h6, h7⟩
    simp [State.invB, *]

end Sys2Proof.Machine
end

