-- ==== Sys2Proof/Tests/Slice0.lean ====
section
/-! SUPPORT. Small tests, each one step on a small state, with expected results from spec/95_test_vectors.md, and a
witness for the hypotheses of each statement. -/

namespace Sys2Proof.Tests

open Sys2Proof Sys2Proof.Machine Sys2Proof.Claims

/-- A running machine with these cells, accumulator and pc. -/
def machine (mem : Memory) (acc : Int) (pc : Nat) : State := { State.reset with mem := mem, acc := acc, pc := pc }

/-- The next state of an outcome, if it is one. -/
def landed {φ ρ : Type} (o : Host.Outcome State φ ρ) : Option State :=
  match o with
  | .next t => some t
  | _ => none

/-- The failure of an outcome, if it is one. -/
def failure {σ φ ρ : Type} (o : Host.Outcome σ φ ρ) : Option φ :=
  match o with
  | .fault f => some f
  | _ => none

/-- The result of an assembly or a load, if it is one. -/
def result {σ φ ρ : Type} (o : Host.Outcome σ φ ρ) : Option σ :=
  match o with
  | .next x => some x
  | _ => none

-- Well-formedness: for each check a term it refuses.

theorem test_wf_refuses_wide_address : (Instr.hlt 100).wf = false ∧ (Instr.add 100).wf = false ∧
    (Instr.sub 100).wf = false ∧ (Instr.sta 100).wf = false ∧ (Instr.lda 100).wf = false ∧
    (Instr.bra 100).wf = false ∧ (Instr.brz 100).wf = false ∧ (Instr.brp 100).wf = false ∧
    (Instr.illegalOp4 100).wf = false ∧ (Instr.illegalOp9 100).wf = false := by decide
theorem test_wf_refuses_function_selectors : (Instr.illegalOp9 1).wf = false ∧ (Instr.illegalOp9 2).wf = false := by
  decide
theorem test_wf_refuses_wide_content : (Instr.dat 1000).wf = false ∧ (Instr.dat (-1)).wf = false := by decide
theorem test_wf_refuses_bad_cells : (MemCell.data 1000).wf = false ∧ (MemCell.instr 10 0).wf = false ∧
    (MemCell.instr 5 100).wf = false := by decide
theorem test_wf_accepts_bounds : (Instr.add 99).wf = true ∧ (Instr.illegalOp9 0).wf = true ∧
    (Instr.illegalOp9 3).wf = true ∧ (Instr.dat 999).wf = true ∧ (MemCell.instr 9 99).wf = true := by decide

-- Decoding: packed forms written out from 30 R84 and 95 section 2.2.

theorem test_decode_halt : decodeTableWord 16 0 = some (.hlt 0) ∧ decodeTableWord 16 37 = some (.hlt 37) := by decide
theorem test_decode_arithmetic : decodeTableWord 16 106 = some (.add 6) ∧ decodeTableWord 16 299 = some (.sub 99) := by
  decide
theorem test_decode_loadstore : decodeTableWord 16 307 = some (.sta 7) ∧ decodeTableWord 16 550 = some (.lda 50) := by
  decide
theorem test_decode_branches : decodeTableWord 16 601 = some (.bra 1) ∧ decodeTableWord 16 705 = some (.brz 5) ∧
    decodeTableWord 16 804 = some (.brp 4) := by decide
theorem test_decode_io : decodeTableWord 16 901 = some .inp ∧ decodeTableWord 16 902 = some .out := by decide
theorem test_decode_illegal : decodeTableWord 16 400 = some (.illegalOp4 0) ∧
    decodeTableWord 16 900 = some (.illegalOp9 0) ∧ decodeTableWord 16 903 = some (.illegalOp9 3) ∧
    decodeTableWord 16 999 = some (.illegalOp9 99) := by decide
theorem test_decode_data : decodeCell (.data 901) = .ok (.dat 901) ∧ decodeTableWord 16 1901 = some (.dat 901) := by
  decide
theorem test_decode_refuses : decodeTableWord 16 2000 = none ∧
    decodeCell (.instr 10 3) = .error (.opcodeHasNoRow 10 3) := by decide
theorem test_placed_word_runs : landed (step (State.reset.withFetchWord 16 902)) =
    some { machine [(0, .instr 9 2)] 0 1 with outq := [0] } := by decide

-- One step of each instruction (95 section 3).

theorem test_hlt_at_99 : landed (step (machine [(99, .instr 0 37)] 123 99)) =
    some { machine [(99, .instr 0 37)] 123 100 with halted := true } := by decide
theorem test_hlt_then_noop : landed (step { machine [(0, .instr 9 2)] 5 0 with halted := true }) =
    some { machine [(0, .instr 9 2)] 5 0 with halted := true } := by decide
theorem test_add_wraps : landed (step (machine [(0, .instr 1 6), (6, .data 450)] 600 0)) =
    some (machine [(0, .instr 1 6), (6, .data 450)] 50 1) := by decide
theorem test_add_instruction_cell : landed (step (machine [(0, .instr 1 10), (10, .instr 5 42)] 500 0)) =
    some (machine [(0, .instr 1 10), (10, .instr 5 42)] 42 1) := by decide
theorem test_sub_wraps : landed (step (machine [(0, .instr 2 7), (7, .data 7)] 5 0)) =
    some (machine [(0, .instr 2 7), (7, .data 7)] 998 1) := by decide
theorem test_sub_from_zero : landed (step (machine [(0, .instr 2 10), (10, .data 999)] 0 0)) =
    some (machine [(0, .instr 2 10), (10, .data 999)] 1 1) := by decide
theorem test_sta_destroys_instruction : landed (step (machine [(1, .instr 3 2), (2, .instr 0 0)] 902 1)) =
    some (machine [(1, .instr 3 2), (2, .data 902)] 902 2) := by decide
theorem test_sta_zero_unlists : landed (step (machine [(1, .instr 3 6), (6, .data 42)] 0 1)) =
    some (machine [(1, .instr 3 6)] 0 2) := by decide
theorem test_lda_itself : landed (step (machine [(0, .instr 5 0)] 7 0)) = some (machine [(0, .instr 5 0)] 500 1) := by
  decide
theorem test_lda_unloaded : landed (step (machine [(0, .instr 5 80)] 7 0)) = some (machine [(0, .instr 5 80)] 0 1) := by
  decide
theorem test_bra_to_99 : landed (step (machine [(98, .instr 6 99)] 3 98)) = some (machine [(98, .instr 6 99)] 3 99) := by
  decide
theorem test_brz_taken : landed (step (machine [(3, .instr 7 5)] 0 3)) = some (machine [(3, .instr 7 5)] 0 5) := by
  decide
theorem test_brz_not_taken : landed (step (machine [(3, .instr 7 5)] 999 3)) = some (machine [(3, .instr 7 5)] 999 4) ∧
    landed (step { machine [(3, .instr 7 5)] 0 3 with ovf := true }) =
      some { machine [(3, .instr 7 5)] 0 4 with ovf := true } := by decide
theorem test_brp_taken : landed (step (machine [(2, .instr 8 4)] 998 2)) = some (machine [(2, .instr 8 4)] 998 4) := by
  decide
theorem test_brp_not_taken : landed (step { machine [(2, .instr 8 4)] 5 2 with ovf := true }) =
    some { machine [(2, .instr 8 4)] 5 3 with ovf := true } := by decide
theorem test_inp_takes_head : landed (step { machine [(0, .instr 9 1)] 5 0 with inq := [0, 9] }) =
    some { machine [(0, .instr 9 1)] 0 1 with inq := [9] } := by decide
theorem test_inp_empty : failure (step (machine [(0, .instr 9 1)] 5 0)) =
    some (.emptyQueue (machine [(0, .instr 9 1)] 5 1)) := by decide
theorem test_out_appends : landed (step { machine [(1, .instr 9 2)] 7 1 with outq := [3] }) =
    some { machine [(1, .instr 9 2)] 7 2 with outq := [3, 7] } := by decide
theorem test_illegal_op4 : failure (step (machine [(7, .instr 4 99)] 1 7)) =
    some (.invalidOpcode 4 99 (machine [(7, .instr 4 99)] 1 8)) := by decide
theorem test_illegal_op9 : failure (step (machine [(7, .instr 9 3)] 1 7)) =
    some (.invalidOpcode 9 3 (machine [(7, .instr 9 3)] 1 8)) := by decide
theorem test_data_fetched : failure (step (machine [(2, .data 901)] 1 2)) =
    some (.halt { machine [(2, .data 901)] 1 3 with halted := true }) := by decide
theorem test_fetch_at_100 : failure (step (machine [] 4 100)) = some (.outOfBounds 100 (machine [] 4 100)) := by decide
theorem test_reset_step : failure (step State.reset) = some (.halt { machine [] 0 1 with halted := true }) := by decide

-- The cell and the queue (95 sections 2.1, 2.3).

theorem test_construct : MemCell.construct none (some (4, 7)) = .ok (.instr 4 7) ∧
    MemCell.construct none (some (10, 0)) = .error .invalidCell ∧
    MemCell.construct none (some (-1, 0)) = .error .invalidCell ∧
    MemCell.construct none (some (5, 100)) = .error .invalidCell ∧
    MemCell.construct none (some (5, -1)) = .error .invalidCell ∧
    MemCell.construct (some 901) none = .ok (.data 901) := by decide
theorem test_assign_and_view : ((MemCell.instr 9 2).assign 902).view = none ∧
    ((MemCell.instr 9 2).assign 902).content = 902 ∧ (MemCell.instr 5 50).view = some (5, 50) := by decide
theorem test_queue : enqueue [5] 3 = [5, 3] ∧ dequeue [3, 5] = .ok (3, [5]) ∧ dequeue [] = .error .emptyQueue ∧
    isEmpty [] = true ∧ isEmpty [3] = false := by decide

/-- The ranges of a list rise strictly, from above `low` on. -/
def risingFrom (low : Nat) : List CodeRange → Bool
  | [] => true
  | (a, z) :: rest => Nat.ble low a && Nat.ble a z && risingFrom (z + 1) rest

/-- The table's form: each block's ranges rise strictly, above the block before it and up to its highest code point. -/
def CodeTable.wfFrom (low : Nat) : CodeTable → Bool
  | [] => true
  | (top, ranges) :: rest =>
    risingFrom low ranges && (ranges.getLast?.map Prod.snd == some top) && CodeTable.wfFrom (top + 1) rest

-- The assembler and the loader (95 section 4; the row's name is in the theorem's).

/-- The pairs of a text, if it assembles. -/
def pairs (text : String) : Option (List Code) := result (assemble text)

theorem test_assemble_a1 : pairs "LOOP LDA X\nX DAT 5" = some [.ofPair 5 1, .ofData 5] := by decide
theorem test_assemble_a3 : pairs "// echo\n\n  inp   // read\n\tOut\nhlt // stop" =
    some [.ofPair 9 1, .ofPair 9 2, .ofPair 0 0] := by decide
theorem test_assemble_a4 : pairs "BRA END\nEND HLT" = some [.ofPair 6 1, .ofPair 0 0] := by decide
theorem test_assemble_a5_a6_a7 : pairs "P DAT P" = some [.ofData 0] ∧ pairs "LDA 007" = some [.ofPair 5 7] ∧
    pairs "LDA 5//x" = some [.ofPair 5 5] := by decide
theorem test_assemble_a8 : failure (assemble "X LDA 5 6") = some .invalidInstructionFormat := by decide
theorem test_assemble_a9_a10 : pairs "LDA 150" = some [.ofPair 5 150] ∧ pairs "DAT 1000" = some [.ofData 1000] := by
  decide
theorem test_assemble_degraded : pairs "LDAA 5" = some [⟨.degraded, .unspecified⟩] ∧
    pairs "OUT HLT" = some [⟨.value 902, .degraded⟩] ∧
    pairs "BRA NOWHERE\nHLT" = some [⟨.value 6, .degraded⟩, .ofPair 0 0] ∧
    pairs "A B HLT" = some [⟨.degraded, .degraded⟩] := by decide
theorem test_assemble_wrong_shape : pairs "ADD" = some [.ofPair 0 1] ∧ pairs "HLT 5" = some [.ofPair 0 5] ∧
    pairs "INP 5" = some [.ofPair 901 5] ∧ pairs "DAT" = some [⟨.degraded, .unspecified⟩] := by decide
theorem test_assemble_a18 : pairs "HLT\nHLT\n7 DAT 3\nLDA 7" =
    some [.ofPair 0 0, .ofPair 0 0, .ofData 3, .ofPair 5 2] := by decide
theorem test_assemble_a19 : pairs "ADD LDA 5\nBRA ADD" = some [.ofPair 5 5, .ofPair 6 0] := by decide
theorem test_assemble_a21 : result (assemble "X HLT\nX HLT") = none ∧ failure (assemble "X HLT\nX HLT") = none := by
  decide
theorem test_assemble_a22 : pairs "" = some [] ∧ pairs "// only a comment" = some [] := by decide
theorem test_load_places_pairs : result (initializeMemory [.ofPair 5 1, .ofData 5] [7] Engine.fresh) =
    some ⟨{ State.reset with mem := [(0, .instr 5 1), (1, .data 5)], inq := [7] }, true⟩ := by decide
theorem test_load_invalid_cell : failure (initializeMemory [.ofPair 5 150] [] Engine.fresh) = some .invalidCell ∧
    failure (initializeMemory [.ofPair 901 5] [] Engine.fresh) = some .invalidCell := by decide
theorem test_load_too_long : failure (initializeMemory (List.replicate 101 (.ofPair 0 0)) [] Engine.fresh) =
    some .outOfBounds := by decide
theorem test_comment_of_any_symbol : pairs "LDA 7 // 5\u20AC \u2192 \u00D7" = some [.ofPair 5 7] ∧
    result (assemble "HLT // caf\u00E9") = none ∧ failure (assemble "HLT // caf\u00E9") = none := by decide
theorem test_letter_table : CodeTable.wfFrom 0x80 letterTable = true := by decide
theorem test_snapshot : (stateSnapshot (machine [(99, .instr 9 1)] 4 3)).memory[99]? = some (.instr 9 1) ∧
    (stateSnapshot (machine [(99, .instr 9 1)] 4 3)).memory.length = 100 := by decide

-- Witnesses: for each statement with hypotheses, states and operands that meet them all.

/-- A state in the domain whose pc is the last cell's address. -/
def atLast (c : MemCell) : State := machine [(99, c)] 999 99

theorem test_witness_invariant : State.Inv (atLast (.instr 9 2)) ∧ State.Inv (machine [(5, .data 7)] 0 100) :=
  ⟨(State.invB_iff _).1 (by decide), (State.invB_iff _).1 (by decide)⟩
theorem test_witness_fetch_outside : (machine [] 0 100).halted = false ∧ 100 ≤ (machine [] 0 100).pc ∧
    100 ≤ (machine [] 0 250).pc ∧ (machine [] 0 250).halted = false ∧ State.Inv (machine [] 0 100) ∧
    State.Inv (atLast (.instr 9 2)) ∧ (landed (step (atLast (.instr 9 2)))).map State.pc = some 100 :=
  ⟨by decide, by decide, by decide, by decide, (State.invB_iff _).1 (by decide), (State.invB_iff _).1 (by decide),
    by decide⟩
theorem test_witness_loaded : (result (initializeMemory [.ofPair 9 99, .ofData 999] [999, 0] Engine.fresh)).isSome = true := by
  decide
theorem test_witness_round_trip : (Instr.illegalOp9 99).wf = true ∧ (Instr.dat 0).wf = true ∧ (Instr.hlt 99).wf = true ∧
    decodeTableWord 11 (encodeWord (.dat 999)) = some (.dat 999) ∧ (MemCell.data 999).wf = true := by decide
theorem test_witness_step_runs : (atLast (.instr 9 2)).halted = false ∧ (atLast (.instr 9 2)).pc < 100 ∧
    decodeCell (Memory.cellAt (atLast (.instr 9 2)).mem (atLast (.instr 9 2)).pc) = .ok .out := by decide
theorem test_witness_placed : State.reset.pc < 100 ∧ decodeTableWord 16 1000 = some (.dat 0) ∧
    (atLast (.data 5)).pc < 100 ∧ decodeTableWord 11 999 = some (.illegalOp9 99) := by decide
theorem test_witness_step_once : ({ State.reset with halted := true } : State).halted = true ∧
    (failure (stepOnce State.reset)).map Fault.kind = some .halt ∧
    (failure (stepOnce (atLast (.instr 4 0)))).map Fault.kind = some .invalidOpcode ∧
    (failure (stepOnce (machine [] 0 100))).map Fault.kind = some .outOfBounds := by decide
theorem test_witness_fall_through : (landed (step (atLast (.instr 9 2)))).isSome = true ∧
    (landed (step (atLast (.instr 7 0)))).map State.pc = some 100 ∧ ¬ ((atLast (.instr 7 0)).acc = 0) ∧
    (landed (step { atLast (.instr 8 0) with ovf := true })).map State.pc = some 100 := by decide
theorem test_witness_transitions : (landed (step (atLast (.instr 0 99)))).map State.halted = some true ∧
    (landed (step (atLast (.instr 6 0)))).map State.halted = some false ∧
    (failure (step (atLast (.data 0)))).isSome = true ∧ (failure (step (atLast (.instr 4 0)))).isSome = true := by decide
theorem test_witness_fetches (c : MemCell) : fetches (atLast c) c := by
  simp [fetches, atLast, machine, Memory.cellAt]
theorem test_witness_failures : (failure (step (machine [] 1 100))).map Fault.kind = some .outOfBounds ∧
    (failure (step (atLast (.data 3)))).map Fault.kind = some .halt ∧
    (failure (step (atLast (.instr 9 0)))).map Fault.kind = some .invalidOpcode ∧
    (failure (step (atLast (.instr 9 1)))).map Fault.kind = some .emptyQueue ∧
    State.invB (machine [] 1 100) = true ∧ State.invB (atLast (.data 3)) = true ∧
    State.invB (atLast (.instr 9 0)) = true ∧ State.invB (atLast (.instr 9 1)) = true := by decide
theorem test_witness_run_halts : (atLast (.instr 0 5)).halted = false ∧
    runToHalt 1 (atLast (.instr 0 5)) = .halted { atLast (.instr 0 5) with pc := 100, halted := true } := by decide
theorem test_witness_operand_bounds : (landed (exec (.add 99) (atLast (.data 1)))).map State.acc = some 0 ∧
    failure (exec (.add 100) (atLast (.data 1))) = some (.outOfBounds 100 (atLast (.data 1))) ∧
    failure (exec (.sta 100) (atLast (.data 1))) = some (.outOfBounds 100 (atLast (.data 1))) := by decide
theorem test_witness_wrap : InThreeDigits (atLast (.data 999)).acc ∧
    (Memory.cellAt (atLast (.data 999)).mem 99).content = 999 ∧ InThreeDigits 999 ∧
    (landed (exec (.sub 99) (machine [(99, .data 999)] 0 0))).map State.acc = some 1 := by decide
theorem test_witness_sta_then_fetch : (machine [(7, .data 902)] 902 7).halted = false ∧
    (machine [(7, .data 902)] 902 7).pc = 7 ∧ Memory.wf [(7, .instr 9 2)] = true ∧
    (machine [(7, .data 902)] 902 7).mem = Memory.put [(7, .instr 9 2)] 7 (.data 902) := by decide
theorem test_witness_spins : fetches (atLast (.instr 6 99)) (.instr 6 (atLast (.instr 6 99)).pc) ∧
    fetches (machine [(0, .instr 7 0)] 0 0) (.instr 7 0) ∧ (machine [(0, .instr 7 0)] 0 0).ovf = false ∧
    fetches (machine [(0, .instr 8 0)] 5 0) (.instr 8 0) ∧ (machine [(0, .instr 8 0)] 5 0).ovf = false :=
  ⟨⟨rfl, by decide, rfl⟩, ⟨rfl, by decide, rfl⟩, rfl, ⟨rfl, by decide, rfl⟩, rfl⟩
theorem test_witness_branch_to_data : (machine [(99, .data 3)] 0 5).halted = false ∧
    Memory.cellAt (machine [(99, .data 3)] 0 5).mem 99 = .data 3 ∧ Memory.cellAt (machine [] 0 5).mem 0 = .data 0 := by
  decide
theorem test_witness_input : ({ State.reset with inq := [7] } : State).inq = 7 :: [] ∧ State.reset.inq = [] := by decide
theorem test_witness_frame : (landed (exec .out (atLast (.data 1)))).map State.outq = some [999] ∧
    (landed (exec (.sta 0) (atLast (.data 1)))).map State.mem = some [(0, .data 999), (99, .data 1)] := by decide
theorem test_witness_kind (b : Nat) :
    (Memory.cellAt [(10, .data 542)] b).content = (Memory.cellAt [(10, .instr 5 42)] b).content := by
  unfold Memory.cellAt; split <;> rfl
theorem test_witness_stored : ((landed (exec (.sta 0) (machine [(1, .instr 0 0)] 901 1))).bind fun t =>
    landed (stepMany 1 t)).map (fun u => Memory.cellAt u.mem 0) = some (.data 901) := by decide
theorem test_witness_stored_fetched : landed (exec (.sta 0) (machine [(1, .instr 6 0)] 901 1)) =
    some (machine [(0, .data 901), (1, .instr 6 0)] 901 1) ∧
    landed (stepMany 1 (machine [(0, .data 901), (1, .instr 6 0)] 901 1)) =
      some (machine [(0, .data 901), (1, .instr 6 0)] 901 0) := by decide
theorem test_witness_queues : landed (step { atLast (.instr 9 1) with inq := [4] }) =
    some { atLast (.instr 9 1) with pc := 100, acc := 4 } ∧ (landed (step (atLast (.instr 9 2)))).isSome = true := by decide
theorem test_witness_runs : runToHalt 0 State.reset = .notEnded State.reset ∧
    runToHalt 1 State.reset = .failed (.halt { machine [] 0 1 with halted := true }) ∧
    runToHalt 0 { State.reset with halted := true } = .halted { State.reset with halted := true } := by decide
theorem test_witness_pairs : pairInRange 9 99 ∧ pairInRange 0 0 ∧ ¬ pairInRange 10 0 ∧ ¬ pairInRange 5 100 ∧
    ¬ pairInRange (-1) 0 ∧ ¬ pairInRange 0 (-1) := by simp [pairInRange]
theorem test_witness_fifo : dequeue [3, 5] = .ok (3, [5]) ∧ dequeue (enqueue [3, 5] 9) = .ok (3, [5, 9]) := by decide
theorem test_witness_launch : launchable [.ofData 999, .ofPair 9 1] [0, 999] := by
  constructor
  · intro c hc
    rcases List.mem_cons.1 hc with rfl | hc
    · exact .inl ⟨999, rfl, by decide⟩
    · exact .inr ⟨9, 1, by simpa using hc⟩
  · decide
theorem test_witness_launch_bad_pair : launchable [.ofPair 5 150] [] ∧ ¬ pairInRange 5 150 :=
  ⟨⟨fun c hc => .inr ⟨5, 150, by simpa using hc⟩, by simp⟩, by simp [pairInRange]⟩
theorem test_witness_launch_long : launchable (List.replicate 101 (.ofPair 0 0)) [] ∧
    100 < (List.replicate 101 (Code.ofPair 0 0)).length :=
  ⟨⟨fun _ hc => .inr ⟨0, 0, List.eq_of_mem_replicate hc⟩, by simp⟩, by simp⟩
theorem test_witness_not_launchable : ¬ launchable [] [1000] ∧ ¬ launchable [⟨.degraded, .unspecified⟩] [] ∧
    ¬ launchable [.ofData 1000] [] := by
  refine ⟨?_, ?_, ?_⟩ <;> rintro ⟨h1, h2⟩
  · have := h2 1000 (by simp); omega
  · rcases h1 _ (List.mem_singleton.2 rfl) with ⟨x, h, _⟩ | ⟨o, a, h⟩ <;> cases h
  · rcases h1 _ (List.mem_singleton.2 rfl) with ⟨x, h, hx⟩ | ⟨o, a, h⟩ <;> cases h
    omega
theorem test_witness_not_fresh : (⟨{ State.reset with acc := 1 }, false⟩ : Engine) ≠ Engine.fresh ∧
    (⟨State.reset, true⟩ : Engine) ≠ Engine.fresh := by decide
theorem test_witness_second_load : result (initializeMemory [] [] Engine.fresh) = some ⟨State.reset, true⟩ ∧
    result (initializeMemory [.ofData 0] [] Engine.fresh) = some ⟨State.reset, true⟩ := by decide
theorem test_witness_normalised : normalise " lda x // y\n\n".toList = [["LDA".toList, "X".toList]] := by decide
theorem test_witness_lines : (∀ l ∈ [" lda x".toList, [], "hlt//".toList], '\n' ∉ l) ∧
    ¬ ['/', '/'] <:+: "a/b ".toList ++ ['/'] := by decide
theorem test_witness_run : isRun "a/b".toList ∧ isBlank ' ' = true :=
  ⟨⟨by decide, by simp [isBlank], by decide⟩, by decide⟩
theorem test_witness_uppercase : 'A' ∉ "abcdefghijklmnopqrstuvwxyz".toList := by simp
theorem test_witness_character_not_admitted : isAdmitted '\u00E9' = false ∧ isAdmitted '\u001C' = false := by decide
theorem test_witness_admitted_source : (∀ c ∈ "X HLT\nX HLT".toList, isAdmitted c = true) ∧ 'A'.toNat < 0x80 :=
  ⟨List.all_eq_true.1 (by decide), by decide⟩
theorem test_witness_label_defined_twice : ¬ ((extractLabels (normalise "X HLT\nX HLT".toList)).1.map Prod.fst).Nodup ∧
    ((extractLabels (normalise "X HLT".toList)).1.map Prod.fst).Nodup := by decide
theorem test_witness_literals : literalValue "99".toList = some 99 ∧ literalValue "0".toList = some 0 ∧
    literalValue "-1".toList = none ∧ literalValue [] = none := by decide
theorem test_witness_operands : operandIs (.label 99) 99 ∧ operandIs (.word "999".toList) 999 ∧
    badOperand (.word "X".toList) ∧ mnemonicTable.lookup "OUT".toList = some 902 :=
  ⟨.inl rfl, .inr ⟨_, rfl, by decide⟩, ⟨_, rfl, by decide⟩, by decide⟩
theorem test_witness_no_entry : noEntry (.label 0) ∧ noEntry (.word "5".toList) ∧ noEntry (.word "DAT".toList) ∧
    (.word "5".toList : Operand) ≠ .word "DAT".toList :=
  ⟨.inl ⟨_, rfl⟩, .inr ⟨_, rfl, by decide⟩, .inr ⟨_, rfl, by decide⟩, by decide⟩
theorem test_witness_marks : carriesMark ⟨.degraded, .unspecified⟩ ∧ carriesMark ⟨.null, .degraded⟩ ∧
    carriesMark ⟨.value 6, .unspecified⟩ := ⟨.inl rfl, .inr (.inl rfl), .inr (.inr rfl)⟩
theorem test_witness_labels : (extractLabels [["A".toList, "ADD".toList, "X".toList], ["X".toList, "HLT".toList],
    ["OUT".toList, "HLT".toList], ["INP".toList], ["A".toList, "B".toList, "C".toList, "D".toList]]).1 =
    [("A".toList, 0), ("X".toList, 1)] ∧ isMnemonic "X".toList = false ∧ isMnemonic "OUT".toList = true := by decide
theorem test_witness_substitution : (extractLabels (normalise "P DAT P".toList)).2[0]? =
    some ["DAT".toList, "P".toList] := by decide
theorem test_witness_assembly : "X LDA 5 6".toList.all isAdmitted = true ∧
    (extractLabels (normalise "X LDA 5 6".toList)).1.distinct = true ∧
    (normalise "X LDA 5 6".toList).map List.length = [4] ∧ (normalise "X LDA 5\nHLT".toList).map List.length = [3, 1] ∧
    "X LDA 5\nHLT".toList.all isAdmitted = true ∧ (extractLabels (normalise "X LDA 5\nHLT".toList)).1.distinct = true ∧
    (substituted "X LDA 5\nHLT".toList)[1]? = some [.word "HLT".toList] := by
  decide
theorem test_witness_well_formed : wellFormedSource "LOOP LDA X\nX DAT 5".toList = true ∧
    wellFormedSource "BRA END\nEND HLT".toList = true ∧ wellFormedSource "LDAA 5".toList = false ∧
    wellFormedSource "LDA 100".toList = false ∧ InThreeDigits 999 := by decide

end Sys2Proof.Tests
end

section
/-! PROOFS. The cells that are not executable (30 R85 to R87): what decodes to them, and how their cycle fails. -/

open Sys2Proof.Claims

namespace Sys2Proof.Machine

/-- The decoder loses nothing: an instruction it reads names the cell it was read from, in its domain or not. -/
theorem encodeCell_of_decodeCell {c : MemCell} {i : Instr} (h : decodeCell c = .ok i) : encodeCell i = c := by
  unfold decodeCell at h
  split at h <;> cases h <;> rfl

theorem decodeCell_nine_other {a : Nat} (h1 : a ≠ 1) (h2 : a ≠ 2) : decodeCell (.instr 9 a) = .ok (.illegalOp9 a) := by
  match a, h1, h2 with
  | 0, _, _ => rfl
  | _ + 3, _, _ => rfl

theorem decodeCell_eq_illegalOp4_iff (o a b : Nat) :
    decodeCell (.instr o a) = .ok (.illegalOp4 b) ↔ o = 4 ∧ a = b := by
  constructor
  · intro h
    cases encodeCell_of_decodeCell h
    exact ⟨rfl, rfl⟩
  · rintro ⟨rfl, rfl⟩
    rfl

theorem decodeCell_eq_illegalOp9_iff (o a b : Nat) :
    decodeCell (.instr o a) = .ok (.illegalOp9 b) ↔ o = 9 ∧ a = b ∧ a ≠ 1 ∧ a ≠ 2 := by
  constructor
  · intro h
    cases encodeCell_of_decodeCell h
    refine ⟨rfl, rfl, ?_, ?_⟩ <;> rintro rfl <;> cases h
  · rintro ⟨rfl, rfl, h1, h2⟩
    exact decodeCell_nine_other h1 h2

theorem exec_illegalOp4 (a : Nat) (s : State) : exec (.illegalOp4 a) s = .fault (.invalidOpcode 4 a s) := rfl

theorem exec_illegalOp9 (a : Nat) (s : State) : exec (.illegalOp9 a) s = .fault (.invalidOpcode 9 a s) := rfl

theorem exec_dat (v : Int) (s : State) : exec (.dat v) s = .fault (.halt (s.setHalted true)) := rfl

/-- A running machine that fetches a decodable cell runs that cell's instruction on the state after the fetch. -/
theorem step_of_fetches {s : State} {c : MemCell} {i : Instr} (h : fetches s c) (hi : decodeCell c = .ok i) :
    step s = exec i s.advancePc := by
  obtain ⟨hrun, hpc, rfl⟩ := h
  rw [step_of_running hrun, cycle_of_decoded hpc hi]

/-- An instruction that fails with InvalidOpcode on the state it is given leaves the fetching machine running. -/
theorem step_invalidOpcode_of_fetches {s : State} {c : MemCell} {i : Instr} {o a : Nat} (h : fetches s c)
    (hi : decodeCell c = .ok i) (hfail : ∀ t, exec i t = .fault (.invalidOpcode o a t)) :
    ∃ l, step s = .fault (.invalidOpcode o a l) ∧ l.halted = false := by
  refine ⟨s.advancePc, ?_, ?_⟩
  · rw [step_of_fetches h hi, hfail]
  · rw [State.advancePc_halted]
    exact h.1

/-- Settles O17: the fetched data cell is the row DAT, which raises the halted flag and then fails. -/
theorem dataCellNeverExecutes : Obligations.DataCellNeverExecutes := by
  unfold Obligations.DataCellNeverExecutes
  refine ⟨fun s v => ⟨s.setHalted true, exec_dat v s, rfl⟩, fun s v h => ?_⟩
  refine ⟨s.advancePc.setHalted true, ?_, State.setHalted_halted _ _⟩
  rw [step_of_fetches h rfl, exec_dat]

/-- Settles O18: the failure carries the state after the fetch, and encoding inverts the decoder. -/
theorem opcodeFourFails : Obligations.OpcodeFourFails := by
  unfold Obligations.OpcodeFourFails
  refine ⟨fun s a => exec_illegalOp4 a s, fun s a h => ?_, fun o a b _ => decodeCell_eq_illegalOp4_iff o a b⟩
  exact step_invalidOpcode_of_fetches h rfl (exec_illegalOp4 a)

/-- Settles O19: as for opcode 4, with the two function selectors shut out of the group. -/
theorem opcodeNineOtherAddressFails : Obligations.OpcodeNineOtherAddressFails := by
  unfold Obligations.OpcodeNineOtherAddressFails
  refine ⟨fun s a => exec_illegalOp9 a s, fun s a h1 h2 h => ?_, decodeCell_eq_illegalOp9_iff⟩
  exact step_invalidOpcode_of_fetches h (decodeCell_nine_other h1 h2) (exec_illegalOp9 a)

end Sys2Proof.Machine
end

section
/-! PROOFS. The memory cell (40 R112 to R117): construction, reading, assignment, and the packed form. -/

open Sys2Proof.Machine Sys2Proof.Claims

namespace Sys2Proof

/-- A pair in range passes both of the constructor's checks (40 R112). -/
theorem MemCell.construct_of_pairInRange {o a : Int} (h : pairInRange o a) :
    MemCell.construct none (some (o, a)) = .ok (.instr o.toNat a.toNat) := by
  obtain ⟨ho, ho9, ha, ha99⟩ := h
  have hopcode : ¬ (o < 0 ∨ ((9 : Nat) : Int) < o) := by omega
  have haddress : ¬ (a < 0 ∨ ((99 : Nat) : Int) < a) := by omega
  simp only [MemCell.construct, if_neg hopcode, if_neg haddress]

/-- A pair out of range fails one of the two checks (40 R112). -/
theorem MemCell.construct_of_not_pairInRange {o a : Int} (h : ¬ pairInRange o a) :
    MemCell.construct none (some (o, a)) = .error .invalidCell := by
  unfold pairInRange at h
  simp only [MemCell.construct, Config.opcodeMax, Config.addressMax]
  split
  · rfl
  · rw [if_pos (by omega)]

theorem MemCell.content_instr (o a : Nat) : (MemCell.instr o a).content = ((pack o a : Nat) : Int) := by
  simp [MemCell.content, pack]

/-- An address of two digits stays out of the opcode's place (30 R81). -/
theorem unpack_pack (o : Nat) {a : Nat} (ha : a ≤ 99) : unpack (pack o a) = (o, a) := by
  simp only [unpack, pack, Prod.mk.injEq]
  omega

/-- Only the tag makes a cell data for the decoder, never its content (30 R87). -/
theorem decodeCell_eq_dat_iff (c : MemCell) (v : Int) : decodeCell c = .ok (.dat v) ↔ c = .data v := by
  constructor
  · exact fun h => (encodeCell_of_decodeCell h).symm
  · rintro rfl
    rfl

theorem MemCell.view_eq_none_iff (c : MemCell) : c.view = none ↔ ∃ v, c = .data v := by
  cases c with
  | data v => exact ⟨fun _ => ⟨v, rfl⟩, fun _ => rfl⟩
  | instr o a => simp [MemCell.view]

/-- Settles O9: the pair is in the constructor's range, and its two-digit address unpacks again. -/
theorem packedContentRoundTrip : Obligations.PackedContentRoundTrip := by
  unfold Obligations.PackedContentRoundTrip
  intro o a ho ha
  have hrange : pairInRange o a := by
    unfold pairInRange
    omega
  exact ⟨MemCell.construct_of_pairInRange hrange, MemCell.content_instr o a, unpack_pack o ha⟩

/-- Settles O39: construction by the pair's range, and the view and the decoder agree on the tag. -/
theorem cellOperations : Obligations.CellOperations := by
  unfold Obligations.CellOperations
  refine ⟨fun _ _ => rfl, rfl, fun _ => rfl, fun _ _ => MemCell.construct_of_pairInRange,
    fun _ _ => MemCell.construct_of_not_pairInRange, fun _ => ⟨rfl, rfl⟩, fun _ _ => ⟨rfl, rfl⟩,
    fun _ => MemCell.content_range, fun c => ?_, fun _ _ => ⟨rfl, rfl, rfl⟩⟩
  simp only [MemCell.view_eq_none_iff, decodeCell_eq_dat_iff]

end Sys2Proof
end

section
/-! PROOFS. The FIFO queue (41 R131 to R133): what leaves it, and the failure that reaches INP. -/

open Sys2Proof.Machine Sys2Proof.Claims

namespace Sys2Proof.Machine

/-- A dequeue succeeds only on a queue with a head, and takes that head (41 R132, R133). -/
theorem dequeue_eq_ok_iff {q rest : Queue} {v : Int} : dequeue q = .ok (v, rest) ↔ q = v :: rest := by
  constructor
  · intro h
    cases q with
    | nil => cases h
    | cons w tail =>
      cases h
      rfl
  · rintro rfl
    exact dequeue_cons v rest

/-- The tail is out of reach of a non-empty queue's head, so a dequeue and an enqueue commute (41 R136). -/
theorem dequeue_enqueue {q rest : Queue} {v : Int} (w : Int) (h : dequeue q = .ok (v, rest)) :
    dequeue (enqueue q w) = .ok (v, enqueue rest w) := by
  obtain rfl := dequeue_eq_ok_iff.mp h
  exact dequeue_cons v (enqueue rest w)

/-- INP passes the queue's failure on with the state it was given (48 R260). -/
theorem exec_inp_of_empty {s : State} (h : s.inq = []) : exec .inp s = .fault (.emptyQueue s) := by
  simp only [exec, execInp, h, dequeue_nil, raise_eq]

/-- Settles O40: an enqueue leaves the head in place, and INP on an empty queue leaves its state as it is. -/
theorem queueOperations : Obligations.QueueOperations := by
  unfold Obligations.QueueOperations
  exact ⟨fun _ _ => rfl, dequeue_cons, dequeue_nil, fun _ _ _ w => dequeue_enqueue w,
    fun s h => ⟨s, exec_inp_of_empty h, h⟩⟩

end Sys2Proof.Machine
end

section
/-! PROOFS. Pass 1 and pass 2 of the assembler (42 R147 to R154): the label a line defines, the instruction it leaves,
and the substitution of that instruction's last token. -/

namespace Sys2Proof.Machine

theorem splitLabel_three (l m x : Token) : splitLabel [l, m, x] = (some l, [m, x]) := rfl

theorem splitLabel_two_of_not_mnemonic {l : Token} (h : isMnemonic l = false) (m : Token) :
    splitLabel [l, m] = (some l, [m]) := by
  simp [splitLabel, h]

theorem splitLabel_two_of_mnemonic {l : Token} (h : isMnemonic l = true) (m : Token) :
    splitLabel [l, m] = (none, [l, m]) := by
  simp [splitLabel, h]

/-- Only a line of two or three tokens can define a label (42 R147 to R150). -/
theorem splitLabel_of_other_length {toks : List Token} (h2 : toks.length ≠ 2) (h3 : toks.length ≠ 3) :
    splitLabel toks = (none, toks) := by
  match toks, h2, h3 with
  | [], _, _ => rfl
  | [_], _, _ => rfl
  | _ :: _ :: _ :: _ :: _, _, _ => rfl

/-- The recursion over line indices is a filter over the lines paired with their indices. -/
theorem labelsFrom_eq_filterMap (idx : Nat) (lines : List (List Token)) :
    labelsFrom idx lines = (lines.zipIdx idx).filterMap fun p => (splitLabel p.1).1.map (·, p.2) := by
  induction lines generalizing idx with
  | nil => rfl
  | cons toks rest ih =>
    cases h : (splitLabel toks).1 <;> simp [labelsFrom, h, ih]

/-- A label has the index of a line exactly if that line defines it (42 R151). -/
theorem mem_extractLabels_iff {lines : List (List Token)} {l : Token} {k : Nat} :
    (l, k) ∈ (extractLabels lines).1 ↔ ∃ toks, lines[k]? = some toks ∧ (splitLabel toks).1 = some l := by
  simp [extractLabels, labelsFrom_eq_filterMap, List.mem_zipIdx_iff_getElem?]

theorem extractLabels_instrs_getElem? (lines : List (List Token)) (k : Nat) :
    (extractLabels lines).2[k]? = lines[k]?.map fun toks => (splitLabel toks).2 :=
  List.getElem?_map

/-- What pass 1 makes of a line that defines a label. -/
theorem extractLabels_of_labelled {lines : List (List Token)} {k : Nat} {toks rest : List Token} {l : Token}
    (hk : lines[k]? = some toks) (h : splitLabel toks = (some l, rest)) :
    (∀ n, (n, k) ∈ (extractLabels lines).1 ↔ n = l) ∧ (extractLabels lines).2[k]? = some rest := by
  constructor
  · simp [mem_extractLabels_iff, hk, h, eq_comm]
  · simp [extractLabels_instrs_getElem?, hk, h]

/-- What pass 1 makes of a line that defines no label. -/
theorem extractLabels_of_unlabelled {lines : List (List Token)} {k : Nat} {toks rest : List Token}
    (hk : lines[k]? = some toks) (h : splitLabel toks = (none, rest)) :
    (∀ n, (n, k) ∉ (extractLabels lines).1) ∧ (extractLabels lines).2[k]? = some rest := by
  constructor
  · simp [mem_extractLabels_iff, hk, h]
  · simp [extractLabels_instrs_getElem?, hk, h]

/-- Settles O44: each token count has its own equation of `splitLabel`, which pass 1 applies once to each line. -/
theorem labelExtractionByTokenCount : Obligations.LabelExtractionByTokenCount := by
  unfold Obligations.LabelExtractionByTokenCount
  refine fun lines => ⟨List.length_map .., fun l k h => ?_, fun k toks hk => ⟨?_, ?_, ?_, fun hlen => ?_⟩⟩
  · obtain ⟨toks, hk, -⟩ := mem_extractLabels_iff.mp h
    exact (List.getElem?_eq_some_iff.mp hk).1
  · rintro l m x rfl
    exact extractLabels_of_labelled hk (splitLabel_three l m x)
  · rintro l m rfl hl
    exact extractLabels_of_labelled hk (splitLabel_two_of_not_mnemonic hl m)
  · rintro l m rfl hl
    exact extractLabels_of_unlabelled hk (splitLabel_two_of_mnemonic hl m)
  · exact extractLabels_of_unlabelled hk (splitLabel_of_other_length (by omega) (by omega))

theorem substituteLast_cons_of_ne_nil (labels : Labels) (t : Token) {rest : List Token} (h : rest ≠ []) :
    substituteLast labels (t :: rest) = .word t :: substituteLast labels rest := by
  cases rest with
  | nil => exact absurd rfl h
  | cons _ _ => rfl

/-- Pass 2 resolves the last token alone (42 R154). -/
theorem substituteLast_append_singleton (labels : Labels) (front : List Token) (t : Token) :
    substituteLast labels (front ++ [t]) = front.map .word ++ [resolve labels t] := by
  induction front with
  | nil => rfl
  | cons f front ih =>
    rw [List.cons_append, substituteLast_cons_of_ne_nil labels f (by simp), ih]
    rfl

/-- Every stripped instruction is substituted with the table of the whole source (42 R154). -/
theorem substituted_getElem? (text : List Char) (k : Nat) :
    (substituted text)[k]? =
      (extractLabels (normalise text)).2[k]?.map (substituteLast (extractLabels (normalise text)).1) :=
  List.getElem?_map

/-- Settles O45: by induction on the tokens before the last one, and pass 2 is a map over the instructions. -/
theorem labelSubstitutionOfLastToken : Obligations.LabelSubstitutionOfLastToken := by
  unfold Obligations.LabelSubstitutionOfLastToken
  refine ⟨substituteLast_append_singleton, fun text k toks hk => ?_⟩
  rw [substituted_getElem?, hk]
  rfl

end Sys2Proof.Machine
end

section
/-! PROOFS. The encoding of a `DAT` line (42 R164), from its operand's value to the loaded cell (49 R273). -/

open Sys2Proof.Claims

namespace Sys2Proof.Machine

/-- A label's address and a literal are encoded alike, by their value (42 R164, R165). -/
theorem encodeOperand_of_operandIs {x : Operand} {n : Nat} (h : operandIs x n) : encodeOperand x = .value n := by
  rcases h with rfl | ⟨t, rfl, ht⟩
  · rfl
  · simp [encodeOperand, operandValue, ht]

theorem encodeTokens_dat (x : Operand) : encodeTokens [.word datToken, x] = .ok ⟨.null, encodeOperand x⟩ := by
  simp only [encodeTokens, if_true]

theorem encodeTokens_dat_of_operandIs {x : Operand} {n : Nat} (h : operandIs x n) :
    encodeTokens [.word datToken, x] = .ok (Code.ofData n) := by
  rw [encodeTokens_dat, encodeOperand_of_operandIs h]
  rfl

/-- Settles O50: a literal and a label's address are both operands of a value, which `DAT` pairs with null. -/
theorem datLineAssemblesToData : Obligations.DatLineAssemblesToData := by
  unfold Obligations.DatLineAssemblesToData
  exact ⟨fun t _ ht => encodeTokens_dat_of_operandIs (.inr ⟨t, rfl, ht⟩),
    fun _ => encodeTokens_dat_of_operandIs (.inl rfl), fun _ => rfl⟩

end Sys2Proof.Machine
end

section
/-! PROOFS. `stepOnce` and the halted flag (43 R199, R201): which completed cycles raise it, and which failed ones. -/

namespace Sys2Proof.Machine

/-- Of the cells, exactly the row HLT decodes to HLT, with its ignored address kept (30 R88). -/
theorem decodeCell_eq_hlt_iff (c : MemCell) (a : Nat) : decodeCell c = .ok (.hlt a) ↔ c = .instr 0 a := by
  constructor
  · exact fun h => (encodeCell_of_decodeCell h).symm
  · rintro rfl
    rfl

/-- Of the instructions that complete, HLT alone halts a running machine (44 R220). -/
theorem exec_next_halted_iff {i : Instr} {s t : State} (hrun : s.halted = false) (h : exec i s = .next t) :
    t.halted = true ↔ ∃ a, i = .hlt a := by
  rcases exec_next_cases h with ⟨a, rfl, rfl⟩ | ⟨a, rfl, -, rfl⟩ | ⟨a, rfl, -, rfl⟩ | ⟨a, rfl, -, rfl⟩ |
    ⟨a, rfl, -, rfl⟩ | ⟨a, rfl, rfl⟩ | ⟨a, rfl, rfl⟩ | ⟨a, rfl, rfl⟩ | ⟨v, rest, rfl, -, rfl⟩ | ⟨rfl, rfl⟩
  all_goals simp [hrun, apply_ite State.halted]

/-- Of the instructions that fail, a data cell alone reports Halt (60 R303). -/
theorem exec_fault_kind_eq_halt_iff {i : Instr} {s : State} {f : Fault} (h : exec i s = .fault f) :
    f.kind = .halt ↔ ∃ v, i = .dat v := by
  rcases exec_fault_cases h with ⟨a, hi, -, rfl⟩ | ⟨rfl, -, rfl⟩ | ⟨a, rfl, rfl⟩ | ⟨a, rfl, rfl⟩ | ⟨v, rfl, rfl⟩
  · rcases hi with rfl | rfl | rfl | rfl <;> simp
  all_goals simp

/-- Of the failures of a running machine's instruction, Halt alone leaves it halted (60 R309). -/
theorem exec_fault_left_halted_iff {i : Instr} {s : State} {f : Fault} (hrun : s.halted = false)
    (h : exec i s = .fault f) : f.left.halted = true ↔ f.kind = .halt := by
  rcases exec_fault_cases h with ⟨a, -, -, rfl⟩ | ⟨-, -, rfl⟩ | ⟨a, -, rfl⟩ | ⟨a, -, rfl⟩ | ⟨v, -, rfl⟩ <;> simp [hrun]

/-- A completed step of a running machine halts it exactly when it fetched `I(0, a)`. -/
theorem step_next_halted_iff {s t : State} (hrun : s.halted = false) (h : step s = .next t) :
    t.halted = true ↔ ∃ a, Memory.cellAt s.mem s.pc = .instr 0 a := by
  rcases step_next_cases h with ⟨hhalt, -⟩ | ⟨-, i, -, hd, hx⟩
  · simp [hrun] at hhalt
  · rw [exec_next_halted_iff (s := s.advancePc) hrun hx]
    simp [← decodeCell_eq_hlt_iff, hd]

/-- A failed step leaves the machine halted exactly when the failure is Halt (60 R309). -/
theorem step_fault_left_halted_iff {s : State} {f : Fault} (h : step s = .fault f) :
    f.left.halted = true ↔ f.kind = .halt := by
  obtain ⟨hrun, ⟨-, rfl⟩ | ⟨o, a, -, -, -, rfl⟩ | ⟨i, -, -, hx⟩⟩ := step_fault_cases h
  · simp [hrun]
  · simp [hrun]
  · exact exec_fault_left_halted_iff (s := s.advancePc) hrun hx

/-- The failure of a step is Halt exactly when it fetched a data cell (43 R194). -/
theorem step_fault_kind_eq_halt_iff {s : State} {f : Fault} (h : step s = .fault f) :
    f.kind = .halt ↔ s.pc < 100 ∧ ∃ v, Memory.cellAt s.mem s.pc = .data v := by
  obtain ⟨-, ⟨hpc, rfl⟩ | ⟨o, a, -, hc, -, rfl⟩ | ⟨i, hpc, hd, hx⟩⟩ := step_fault_cases h
  · simp [Nat.not_lt.mpr hpc]
  · simp [hc]
  · rw [exec_fault_kind_eq_halt_iff hx]
    simp [← decodeCell_eq_dat_iff, hd, hpc]

/-- A step that fails at the fetch leaves the state it started from (60 R301). -/
theorem step_fault_left_of_ge {s : State} {f : Fault} (hpc : 100 ≤ s.pc) (h : step s = .fault f) : f.left = s := by
  have hrun : s.halted = false := (step_fault_cases h).1
  rw [step_of_running hrun, cycle_of_ge hpc] at h
  cases h
  rfl

/-- Settles O13: a failure leaves the machine halted exactly when it is Halt, and a failed fetch changes nothing. -/
theorem stepOnceRunsOneCycle : Obligations.StepOnceRunsOneCycle := by
  unfold Obligations.StepOnceRunsOneCycle
  refine ⟨fun _ => step_of_halted, fun _ => step_of_running, fun s f h => ⟨fun hk => ?_, fun hk => ?_, fun hpc => ?_⟩⟩
  · exact step_of_halted ((step_fault_left_halted_iff h).mpr hk)
  · have hrun : f.left.halted = false := Bool.eq_false_iff.mpr (mt (step_fault_left_halted_iff h).mp hk)
    exact ⟨hrun, step_of_running hrun⟩
  · have hleft : f.left = s := step_fault_left_of_ge hpc h
    exact ⟨hleft, hleft.symm ▸ h⟩

/-- Settles O16: HLT is the one completed cycle that raises the flag, and the fetch of a data cell the one failed
cycle. -/
theorem haltedTransitions : Obligations.HaltedTransitions := by
  unfold Obligations.HaltedTransitions
  exact ⟨State.reset_halted, fun _ h => ⟨step_of_halted h, runToHalt_of_halted h⟩, fun _ _ => step_next_halted_iff,
    fun _ _ h => ⟨(step_fault_cases h).1, step_fault_left_halted_iff h, step_fault_kind_eq_halt_iff h⟩⟩

end Sys2Proof.Machine
end

section
/-! PROOFS. HLT (44 R220): its encoding and its line, the cycle that runs it, and the end of a run. -/

open Sys2Proof.Claims

namespace Sys2Proof.Machine

/-- A row whose decoding and encoding are each other's inverse at every address has its opcode to itself (30 R84). -/
theorem operandEncodes_of_inverse {o : Nat} {i : Nat → Instr} (hdec : ∀ a, decodeCell (.instr o a) = .ok (i a))
    (henc : ∀ a, encodeCell (i a) = .instr o a) : operandEncodes o i := by
  refine ⟨fun a _ => ⟨hdec a, rfl⟩, fun c a hwf h => ?_⟩
  obtain rfl : c = .instr o a := (encodeCell_of_decodeCell h).symm.trans (henc a)
  have haddr : a ≤ 99 := by
    simp only [MemCell.wf, addressOk, Bool.and_eq_true, decide_eq_true_eq] at hwf
    exact hwf.2
  exact ⟨rfl, Nat.lt_succ_of_le haddr⟩

/-- A mnemonic alone on its line becomes the pair its number unpacks to (42 R162). -/
theorem controlAssembles_of_lookup {mnemonic : String} {code : Nat}
    (h : mnemonicTable.lookup mnemonic.toList = some code) :
    controlAssembles mnemonic code (code / 100) (code % 100) :=
  ⟨h, rfl, by simp only [encodeTokens, lookupMnemonic, h]⟩

theorem withOperand_ne_refused {use : Int → Host.Outcome State Fault Refusal} {r : Refusal}
    (h : ∀ v, use v ≠ .refused r) (a : Nat) (s : State) : withOperand a s use ≠ .refused r := by
  rcases Nat.lt_or_ge a 100 with ha | ha
  · rw [withOperand_of_lt ha]
    exact h _
  · simp [withOperand_of_ge ha]

theorem storeOperand_ne_refused (a : Nat) (v : Int) (s : State) (r : Refusal) : storeOperand a v s ≠ .refused r := by
  rcases Nat.lt_or_ge a 100 with ha | ha
  · simp [storeOperand_of_lt ha]
  · simp [storeOperand_of_ge ha]

/-- Every instruction has its meaning: none is refused. -/
theorem exec_ne_refused (i : Instr) (s : State) (r : Refusal) : exec i s ≠ .refused r := by
  cases i with
  | add a => exact withOperand_ne_refused (by simp) a s
  | sub a => exact withOperand_ne_refused (by simp) a s
  | lda a => exact withOperand_ne_refused (by simp) a s
  | sta a => exact storeOperand_ne_refused a s.acc s r
  | inp => cases hq : s.inq <;> simp [exec, execInp, dequeue, hq]
  | hlt | bra | brz | brp | out | illegalOp4 | illegalOp9 | dat => exact nofun

theorem step_ne_refused (s : State) (r : Refusal) : step s ≠ .refused r := by
  cases hrun : s.halted with
  | true => simp [step_of_halted hrun]
  | false =>
    rw [step_of_running hrun]
    rcases cycle_cases s with ⟨-, hc⟩ | ⟨o, a, -, -, -, hc⟩ | ⟨i, -, -, hc⟩
    · simp [hc]
    · simp [hc]
    · exact hc ▸ exec_ne_refused i _ r

/-- What a step keeps is said of its completion and of its failure; the third outcome never occurs. -/
theorem keeps_step {P : State → Prop} {s : State} (hnext : ∀ t, step s = .next t → P t)
    (hfault : ∀ f, step s = .fault f → P f.left) : keeps P (step s) := by
  cases h : step s with
  | next t => exact hnext t h
  | fault f => exact hfault f h
  | refused r => exact step_ne_refused s r h

theorem exec_hlt (a : Nat) (s : State) : exec (.hlt a) s = .next (s.setHalted true) := rfl

theorem step_of_fetches_hlt {s : State} {a : Nat} (h : fetches s (.instr 0 a)) :
    step s = .next (s.advancePc.setHalted true) := by
  rw [step_of_fetches h rfl, exec_hlt]

/-- A completed step that halts a running machine ran HLT. -/
theorem fetches_hlt_of_step_next {s t : State} (hrun : s.halted = false) (h : step s = .next t)
    (ht : t.halted = true) : ∃ a, fetches s (.instr 0 a) := by
  obtain ⟨a, hc⟩ := (step_next_halted_iff hrun h).mp ht
  rcases step_next_cases h with ⟨hhalt, -⟩ | ⟨-, i, hpc, -, -⟩
  · simp [hrun] at hhalt
  · exact ⟨a, hrun, hpc, hc⟩

/-- A failed step that leaves the machine halted fetched a data cell. -/
theorem fetches_data_of_step_fault {s : State} {f : Fault} (h : step s = .fault f) (hf : f.left.halted = true) :
    ∃ v, fetches s (.data v) := by
  have hkind : f.kind = .halt := (step_fault_left_halted_iff h).mp hf
  obtain ⟨hpc, v, hc⟩ := (step_fault_kind_eq_halt_iff h).mp hkind
  exact ⟨v, (step_fault_cases h).1, hpc, hc⟩

theorem runToHalt_succ_of_next {s t : State} (hrun : s.halted = false) (h : step s = .next t) (fuel : Nat) :
    runToHalt (fuel + 1) s = runToHalt fuel t := by
  simp [runToHalt, hrun, ← step_of_running hrun, h]

/-- A run that ends normally from a running machine completed its first step. -/
theorem runToHalt_succ_eq_halted {s t : State} {fuel : Nat} (hrun : s.halted = false)
    (h : runToHalt (fuel + 1) s = .halted t) : ∃ u, step s = .next u ∧ runToHalt fuel u = .halted t := by
  cases hs : step s with
  | next u => exact ⟨u, rfl, runToHalt_succ_of_next hrun hs fuel ▸ h⟩
  | fault f => simp [runToHalt, hrun, ← step_of_running hrun, hs] at h
  | refused r => exact absurd hs (step_ne_refused s r)

/-- The last step of a run that ends normally ran HLT: until then the machine is running (43 R200). -/
theorem runToHalt_ends_with_hlt {fuel : Nat} {s t : State} (hrun : s.halted = false)
    (h : runToHalt fuel s = .halted t) : ∃ u a, fetches u (.instr 0 a) ∧ step u = .next t := by
  induction fuel generalizing s with
  | zero => simp [runToHalt, hrun] at h
  | succ fuel ih =>
    obtain ⟨u, hs, hu⟩ := runToHalt_succ_eq_halted hrun h
    cases hhalt : u.halted with
    | false => exact ih hhalt hu
    | true =>
      obtain ⟨a, hfetch⟩ := fetches_hlt_of_step_next hrun hs hhalt
      rw [runToHalt_of_halted hhalt] at hu
      cases hu
      exact ⟨s, a, hfetch, hs⟩

/-- Settles O22: HLT's cycle raises the flag alone, a halting step fetched HLT or a data cell, and the last clause is by
induction on the fuel. -/
theorem hltHalts : Obligations.HltHalts := by
  unfold Obligations.HltHalts
  obtain ⟨-, hdata⟩ := dataCellNeverExecutes
  refine ⟨operandEncodes_of_inverse (fun _ => rfl) (fun _ => rfl), controlAssembles_of_lookup (by decide),
    fun s a => exec_hlt a s, fun s a fuel h => ?_, fun _ => step_of_halted, fun s hrun => ?_, fun s => hdata s 0,
    fun _ _ _ => runToHalt_ends_with_hlt⟩
  · have hstep := step_of_fetches_hlt h
    exact ⟨hstep, (runToHalt_succ_of_next h.1 hstep fuel).trans (runToHalt_of_halted rfl fuel)⟩
  · exact keeps_step (fun t h ht => .inl (fetches_hlt_of_step_next hrun h ht))
      (fun f h hf => .inr (fetches_data_of_step_fault h hf))

end Sys2Proof.Machine
end

section
/-! PROOFS. ADD and SUB (45 R230, R232): their encodings, the line of an action mnemonic, and the write-back. -/

open Sys2Proof.Claims

namespace Sys2Proof.Machine

theorem lookup_datToken : mnemonicTable.lookup datToken = none := by decide

/-- A mnemonic with a number, before an operand with a value, becomes the pair of the two (42 R163). -/
theorem encodeTokens_of_lookup {m : Token} {code n : Nat} {x : Operand} (hm : mnemonicTable.lookup m = some code)
    (hx : operandIs x n) : encodeTokens [.word m, x] = .ok (Code.ofPair code n) := by
  have hdat : Operand.word m ≠ .word datToken := by
    rintro ⟨⟩
    simp [lookup_datToken] at hm
  simp only [encodeTokens, if_neg hdat, lookupMnemonic, hm, encodeOperand_of_operandIs hx]
  rfl

/-- A mnemonic's number in the table is its action's opcode: a literal and a label's address have their value alike. -/
theorem actionAssembles_of_lookup {mnemonic : String} {opcode : Nat}
    (h : mnemonicTable.lookup mnemonic.toList = some opcode) : actionAssembles mnemonic opcode :=
  ⟨h, fun t _ ht => encodeTokens_of_lookup h (.inr ⟨t, rfl, ht⟩), fun _ => encodeTokens_of_lookup h (.inl rfl)⟩

theorem exec_add_of_lt {a : Nat} (ha : a < 100) (s : State) :
    exec (.add a) s = .next (s.setAcc ((s.acc + (Memory.cellAt s.mem a).content) % 1000)) := by
  rw [exec, execAdd, withOperand_of_lt ha, accumulate_eq]

theorem exec_add_of_ge {a : Nat} (ha : 100 ≤ a) (s : State) : exec (.add a) s = .fault (.outOfBounds a s) :=
  withOperand_of_ge ha s _

theorem exec_sub_of_lt {a : Nat} (ha : a < 100) (s : State) :
    exec (.sub a) s = .next (s.setAcc ((s.acc - (Memory.cellAt s.mem a).content) % 1000)) := by
  rw [exec, execSub, withOperand_of_lt ha, accumulate_eq]

theorem exec_sub_of_ge {a : Nat} (ha : 100 ≤ a) (s : State) : exec (.sub a) s = .fault (.outOfBounds a s) :=
  withOperand_of_ge ha s _

/-- Settles O23: the reduced sum never meets the overflow test, so the accumulator alone is written. -/
theorem addAddsModuloThousand : Obligations.AddAddsModuloThousand := by
  unfold Obligations.AddAddsModuloThousand
  exact ⟨operandEncodes_of_inverse (fun _ => rfl) (fun _ => rfl), actionAssembles_of_lookup (by decide),
    fun s _ ha => exec_add_of_lt ha s, fun s _ ha => exec_add_of_ge ha s⟩

/-- Settles O24: as for ADD, the non-negative remainder of the difference is all that is written. -/
theorem subSubtractsModuloThousand : Obligations.SubSubtractsModuloThousand := by
  unfold Obligations.SubSubtractsModuloThousand
  exact ⟨operandEncodes_of_inverse (fun _ => rfl) (fun _ => rfl), actionAssembles_of_lookup (by decide),
    fun s _ ha => exec_sub_of_lt ha s, fun s _ ha => exec_sub_of_ge ha s⟩

end Sys2Proof.Machine
end

section
/-! PROOFS. STA and LDA (46 R240, R241): their encodings, the cell STA leaves, and the content LDA reads. -/

open Sys2Proof.Claims

namespace Sys2Proof.Machine

theorem exec_sta_of_lt {a : Nat} (ha : a < 100) (s : State) :
    exec (.sta a) s = .next (s.setMem (Memory.put s.mem a (.data s.acc))) :=
  storeOperand_of_lt ha s.acc s

theorem exec_sta_of_ge {a : Nat} (ha : 100 ≤ a) (s : State) : exec (.sta a) s = .fault (.outOfBounds a s) :=
  storeOperand_of_ge ha s.acc s

theorem exec_lda_of_lt {a : Nat} (ha : a < 100) (s : State) :
    exec (.lda a) s = .next (s.setAcc (Memory.cellAt s.mem a).content) :=
  withOperand_of_lt ha s _

theorem exec_lda_of_ge {a : Nat} (ha : 100 ≤ a) (s : State) : exec (.lda a) s = .fault (.outOfBounds a s) :=
  withOperand_of_ge ha s _

/-- A running machine that reaches a cell just written as data fails with Halt there (43 R194). -/
theorem step_halt_of_pc_at_put_data {s : State} {m : Memory} {a : Nat} {v : Int} (hrun : s.halted = false)
    (ha : a < 100) (hpc : s.pc = a) (hmem : s.mem = Memory.put m a (.data v)) :
    ∃ l, step s = .fault (.halt l) := by
  have hcell : Memory.cellAt s.mem s.pc = .data v := by rw [hmem, hpc, Memory.cellAt_put_same]
  obtain ⟨-, hdata⟩ := dataCellNeverExecutes
  obtain ⟨l, hstep, -⟩ := hdata s v ⟨hrun, hpc ▸ ha, hcell⟩
  exact ⟨l, hstep⟩

/-- Settles O26: the new memory is one `Memory.put` of `D(acc)`, and each clause about it is a law of that write. -/
theorem staStoresDataCell : Obligations.StaStoresDataCell := by
  unfold Obligations.StaStoresDataCell
  refine ⟨operandEncodes_of_inverse (fun _ => rfl) (fun _ => rfl), actionAssembles_of_lookup (by decide),
    fun s a ha => ⟨Memory.put s.mem a (.data s.acc), exec_sta_of_lt ha s, ?_, ?_, ?_, ?_⟩,
    fun s _ ha => exec_sta_of_ge ha s⟩
  · exact Memory.cellAt_put_same s.mem a _
  · exact fun b hb => Memory.cellAt_put_other hb s.mem _
  · exact Memory.put_wf s.mem a _ ha
  · exact fun u hrun hpc hmem => step_halt_of_pc_at_put_data hrun ha hpc hmem

/-- Settles O27: the content read goes to the accumulator as it is, with no write-back test. -/
theorem ldaLoadsContent : Obligations.LdaLoadsContent := by
  unfold Obligations.LdaLoadsContent
  exact ⟨operandEncodes_of_inverse (fun _ => rfl) (fun _ => rfl), actionAssembles_of_lookup (by decide),
    fun s _ ha => exec_lda_of_lt ha s, fun s _ ha => exec_lda_of_ge ha s⟩

end Sys2Proof.Machine
end

section
/-! PROOFS. BRA, BRZ and BRP (47 R250 to R252): each branch's condition, its form when taken, and the branch to itself. -/

open Sys2Proof.Claims

namespace Sys2Proof.Machine

/-- A branch whose test decides `P` is taken exactly when `P` holds (47). -/
theorem branchWhen_of_iff {taken : Bool} {P : Prop} [Decidable P] (h : taken = true ↔ P) (a : Nat) (s : State) :
    branchWhen taken a s = .next (if P then s.setPc a else s) := by
  simp only [branchWhen, h]

theorem exec_bra (a : Nat) (s : State) : exec (.bra a) s = .next (s.setPc a) := rfl

theorem exec_brz (a : Nat) (s : State) :
    exec (.brz a) s = .next (if s.acc = 0 ∧ s.ovf = false then s.setPc a else s) :=
  branchWhen_of_iff (zeroCondition_iff s) a s

/-- With the overflow flag clear, BRZ tests the accumulator alone (47 R251). -/
theorem exec_brz_of_ovf_clear {s : State} (hovf : s.ovf = false) (a : Nat) :
    exec (.brz a) s = .next (if s.acc = 0 then s.setPc a else s) :=
  branchWhen_of_iff ((zeroCondition_iff s).trans (and_iff_left hovf)) a s

theorem exec_brp (a : Nat) (s : State) : exec (.brp a) s = .next (if s.ovf = false then s.setPc a else s) :=
  branchWhen_of_iff (positiveCondition_iff s) a s

theorem exec_brz_of_taken {s : State} (hacc : s.acc = 0) (hovf : s.ovf = false) (a : Nat) :
    exec (.brz a) s = .next (s.setPc a) := by
  rw [exec_brz_of_ovf_clear hovf, if_pos hacc]

theorem exec_brp_of_taken {s : State} (hovf : s.ovf = false) (a : Nat) : exec (.brp a) s = .next (s.setPc a) := by
  rw [exec_brp, if_pos hovf]

/-- A running machine whose step leads back to it never ends. -/
theorem spins_of_step_self {s : State} (hrun : s.halted = false) (h : step s = .next s) : spins s := by
  intro fuel
  induction fuel with
  | zero => simp [runToHalt, hrun]
  | succ fuel ih => rw [runToHalt_succ_of_next hrun h, ih]

/-- A taken branch to its own cell undoes the fetch's advance of pc, so the cycle changes nothing. -/
theorem spins_of_branch_to_self {s : State} {c : MemCell} {i : Instr} (h : fetches s c) (hi : decodeCell c = .ok i)
    (htaken : exec i s.advancePc = .next (s.advancePc.setPc s.pc)) : spins s :=
  spins_of_step_self h.1 ((step_of_fetches h hi).trans htaken)

/-- Settles O28: the target is not looked at before the next fetch, which then meets the data cell. -/
theorem braBranchesAlways : Obligations.BraBranchesAlways := by
  unfold Obligations.BraBranchesAlways
  obtain ⟨-, hdata⟩ := dataCellNeverExecutes
  refine ⟨operandEncodes_of_inverse (fun _ => rfl) (fun _ => rfl), actionAssembles_of_lookup (by decide),
    fun s a => exec_bra a s, fun s h => ?_, fun s a v hrun ha hcell => ?_⟩
  · exact spins_of_branch_to_self h rfl (exec_bra s.pc s.advancePc)
  · have hfetch : fetches (s.setPc a) (.data v) := ⟨hrun, ha, hcell⟩
    obtain ⟨l, hstep, -⟩ := hdata (s.setPc a) v hfetch
    exact ⟨s.setPc a, l, exec_bra a s, hstep⟩

/-- Settles O29: the invariant keeps the overflow flag false, which leaves the accumulator's test alone. -/
theorem brzBranchesOnZero : Obligations.BrzBranchesOnZero := by
  unfold Obligations.BrzBranchesOnZero
  refine ⟨operandEncodes_of_inverse (fun _ => rfl) (fun _ => rfl), actionAssembles_of_lookup (by decide),
    fun s a => exec_brz a s, fun s a hinv => ?_, fun s h hacc hovf => ?_⟩
  · exact exec_brz_of_ovf_clear hinv.ovfClear a
  · exact spins_of_branch_to_self h rfl (exec_brz_of_taken (s := s.advancePc) hacc hovf s.pc)

/-- Settles O30: the overflow flag alone is tested, and under the invariant it is false, as for a branch always taken. -/
theorem brpIgnoresAccumulator : Obligations.BrpIgnoresAccumulator := by
  unfold Obligations.BrpIgnoresAccumulator
  refine ⟨operandEncodes_of_inverse (fun _ => rfl) (fun _ => rfl), actionAssembles_of_lookup (by decide),
    fun s a => exec_brp a s, fun s a hinv => ?_, fun s h hovf => ?_⟩
  · rw [exec_brp_of_taken hinv.ovfClear, exec_bra]
  · exact spins_of_branch_to_self h rfl (exec_brp_of_taken (s := s.advancePc) hovf s.pc)

end Sys2Proof.Machine
end

section
/-! PROOFS. OUT (48 R261): its encoding and its line, what it appends, and that no instruction reads the output queue. -/

open Sys2Proof.Claims

namespace Sys2Proof.Machine

/-- Of the cells, exactly `I(9, 2)` decodes to OUT (48 R261). -/
theorem decodeCell_eq_out_iff (c : MemCell) : decodeCell c = .ok .out ↔ c = .instr 9 2 := by
  constructor
  · exact fun h => (encodeCell_of_decodeCell h).symm
  · rintro rfl
    rfl

theorem exec_out (s : State) : exec .out s = .next (s.setOutq (s.outq ++ [s.acc])) := rfl

theorem exec_inp_of_cons {s : State} {v : Int} {rest : Queue} (h : s.inq = v :: rest) :
    exec .inp s = .next ((s.setInq rest).setAcc v) := by
  simp only [exec, execInp, h, dequeue_cons]

/-- An instruction that completes does so with any other output queue, and to the same state but for that queue
(48 R261 (c)). -/
theorem exec_setOutq_of_next {i : Instr} {s t : State} (q : Queue) (h : exec i s = .next t) :
    ∃ t', exec i (s.setOutq q) = .next t' ∧ t'.setOutq [] = t.setOutq [] := by
  rcases exec_next_cases h with ⟨a, rfl, rfl⟩ | ⟨a, rfl, ha, rfl⟩ | ⟨a, rfl, ha, rfl⟩ | ⟨a, rfl, ha, rfl⟩ |
    ⟨a, rfl, ha, rfl⟩ | ⟨a, rfl, rfl⟩ | ⟨a, rfl, rfl⟩ | ⟨a, rfl, rfl⟩ | ⟨v, rest, rfl, hq, rfl⟩ | ⟨rfl, rfl⟩
  · exact ⟨_, exec_hlt a _, rfl⟩
  · exact ⟨_, exec_add_of_lt ha _, rfl⟩
  · exact ⟨_, exec_sub_of_lt ha _, rfl⟩
  · exact ⟨_, exec_sta_of_lt ha _, rfl⟩
  · exact ⟨_, exec_lda_of_lt ha _, rfl⟩
  · exact ⟨_, exec_bra a _, rfl⟩
  · exact ⟨if zeroCondition s then (s.setOutq q).setPc a else s.setOutq q, rfl, by split <;> rfl⟩
  · exact ⟨if positiveCondition s then (s.setOutq q).setPc a else s.setOutq q, rfl, by split <;> rfl⟩
  · exact ⟨_, exec_inp_of_cons (s := s.setOutq q) hq, rfl⟩
  · exact ⟨_, exec_out _, rfl⟩

/-- Settles O32: OUT is one append, and a completing instruction's next state differs in the output queue alone. -/
theorem outAppendsAccumulator : Obligations.OutAppendsAccumulator := by
  unfold Obligations.OutAppendsAccumulator
  exact ⟨decodeCell_eq_out_iff, controlAssembles_of_lookup (by decide), exec_out,
    fun _ _ _ q => exec_setOutq_of_next q⟩

end Sys2Proof.Machine
end

section
/-! PROOFS. The fetch outside memory (60 R301): its failure, and the one cell it is reached from by a step. -/

namespace Sys2Proof.Machine

theorem pc_of_setPc_if (taken : Bool) (a : Nat) (s : State) :
    (if taken then s.setPc a else s).pc = s.pc ∨ (if taken then s.setPc a else s).pc = a := by
  cases taken
  · exact .inl rfl
  · exact .inr rfl

/-- Of the instructions that complete, only a branch moves pc, and only to its own address field (47). -/
theorem exec_next_pc_cases {i : Instr} {s t : State} (h : exec i s = .next t) :
    t.pc = s.pc ∨ ∃ a, (i = .bra a ∨ i = .brz a ∨ i = .brp a) ∧ t.pc = a := by
  rcases exec_next_cases h with ⟨a, rfl, rfl⟩ | ⟨a, rfl, -, rfl⟩ | ⟨a, rfl, -, rfl⟩ | ⟨a, rfl, -, rfl⟩ |
    ⟨a, rfl, -, rfl⟩ | ⟨a, rfl, rfl⟩ | ⟨a, rfl, rfl⟩ | ⟨a, rfl, rfl⟩ | ⟨v, rest, rfl, -, rfl⟩ | ⟨rfl, rfl⟩
  · exact .inl rfl
  · exact .inl rfl
  · exact .inl rfl
  · exact .inl rfl
  · exact .inl rfl
  · exact .inr ⟨a, .inl rfl, rfl⟩
  · exact (pc_of_setPc_if (zeroCondition s) a s).imp_right fun hpc => ⟨a, .inr (.inl rfl), hpc⟩
  · exact (pc_of_setPc_if (positiveCondition s) a s).imp_right fun hpc => ⟨a, .inr (.inr rfl), hpc⟩
  · exact .inl rfl
  · exact .inl rfl

/-- With every cell in its domain, a completed step of a running machine goes on to the next address or branches to an
address inside memory. -/
theorem step_next_pc_cases {s t : State} (hmem : Memory.cellsOk s.mem = true) (hrun : s.halted = false)
    (h : step s = .next t) : t.pc = s.pc + 1 ∨ t.pc ≤ 99 := by
  rcases step_next_cases h with ⟨hhalt, -⟩ | ⟨-, i, -, hd, hx⟩
  · simp [hrun] at hhalt
  have hwf : i.wf = true := (decodeCell_wf (Memory.cellAt_ok s.mem s.pc hmem) hd).1
  rcases exec_next_pc_cases hx with hnext | ⟨a, hi, rfl⟩
  · exact .inl hnext
  · right
    rcases hi with rfl | rfl | rfl <;> exact Laws.PackedRange.of_operand hwf

/-- Settles O14: a branch stays inside memory, so pc reaches 100 only by the fetch's increment. -/
theorem fetchOutsideMemoryFails : Obligations.FetchOutsideMemoryFails := by
  unfold Obligations.FetchOutsideMemoryFails
  refine ⟨fun s hrun hpc => ?_, fun s hinv hpc => Nat.le_antisymm hinv.pcInRange hpc, fun s t hinv hrun h ht => ?_⟩
  · rw [step_of_running hrun, cycle_of_ge hpc]
  · have hnext : t.pc = s.pc + 1 ∨ t.pc ≤ 99 := step_next_pc_cases hinv.memInDomain hrun h
    omega

end Sys2Proof.Machine
end

section
/-! PROOFS. Encoding (30 R80 to R88): the decoder and the encoder are each other's inverse on the domain, by cell and by
word. -/

namespace Sys2Proof

/-- The cell of a well-formed instruction is in the domain of cells (30 R84). -/
theorem encodeCell_wf {i : Instr} (h : i.wf = true) : (encodeCell i).wf = true := by
  cases i with
  | inp => rfl
  | out => rfl
  | dat v => exact h
  | illegalOp9 a =>
    simp only [Instr.wf, Bool.and_eq_true] at h
    exact h.1.1
  | hlt a | add a | sub a | sta a | lda a | bra a | brz a | brp a | illegalOp4 a => exact h

/-- Only the second illegal group has an address that its cell could read back as another instruction. -/
theorem decodeCell_encodeCell {i : Instr} (h : i.wf = true) : decodeCell (encodeCell i) = .ok i := by
  cases i with
  | illegalOp9 a =>
    simp only [Instr.wf, Bool.and_eq_true, bne_iff_ne] at h
    obtain ⟨⟨-, h1⟩, h2⟩ := h
    exact Machine.decodeCell_nine_other h1 h2
  | _ => rfl

theorem MemCell.wf_data_iff (v : Int) : (MemCell.data v).wf = true ↔ InThreeDigits v := decide_eq_true_iff

theorem MemCell.wf_instr_iff (o a : Nat) : (MemCell.instr o a).wf = true ↔ o ≤ 9 ∧ a ≤ 99 := by
  simp [MemCell.wf, addressOk]

/-- A cell in its domain has a row of the opcode map. -/
theorem decodeCell_isOk {c : MemCell} (h : c.wf = true) : ∃ i, decodeCell c = .ok i := by
  cases hd : decodeCell c with
  | ok i => exact ⟨i, rfl⟩
  | error r =>
    obtain ⟨o, a, rfl, ho, -⟩ := Machine.decodeCell_error hd
    obtain ⟨hrow, -⟩ := (MemCell.wf_instr_iff o a).mp h
    exact absurd hrow (Nat.not_le.mpr ho)

/-- The tag's digit keeps the words of the domain below 2000. -/
theorem wordOfCell_lt {c : MemCell} (h : c.wf = true) : wordOfCell c < 2000 := by
  cases c with
  | data v =>
    obtain ⟨-, hhigh⟩ := (MemCell.wf_data_iff v).mp h
    simp only [wordOfCell]
    omega
  | instr o a =>
    obtain ⟨ho, ha⟩ := (MemCell.wf_instr_iff o a).mp h
    simp only [wordOfCell, pack]
    omega

/-- The numbering of cells as words loses nothing on the domain. -/
theorem cellOfWord_wordOfCell {c : MemCell} (h : c.wf = true) : cellOfWord (wordOfCell c) = some c := by
  cases c with
  | data v =>
    obtain ⟨hnonneg, hle⟩ := (MemCell.wf_data_iff v).mp h
    have hlow : ¬ 1000 + v.toNat < 1000 := by omega
    have hhigh : 1000 + v.toNat < 2000 := by omega
    simp only [wordOfCell, cellOfWord, if_neg hlow, if_pos hhigh, Nat.add_sub_cancel_left, Int.toNat_of_nonneg hnonneg]
  | instr o a =>
    obtain ⟨ho, ha⟩ := (MemCell.wf_instr_iff o a).mp h
    have hword : pack o a < 1000 := by
      simp only [pack]
      omega
    simp only [wordOfCell, cellOfWord, if_pos hword, unpack_pack o ha]

theorem decodeWord_encodeWord {i : Instr} (h : i.wf = true) : decodeWord (encodeWord i) = .ok i := by
  simp only [decodeWord, encodeWord, cellOfWord_wordOfCell (encodeCell_wf h), decodeCell_encodeCell h]
  rfl

/-- Eleven bits hold every word of the domain. -/
theorem decodeTableWord_encodeWord {i : Instr} (h : i.wf = true) {nbits : Nat} (hbits : 11 ≤ nbits) :
    decodeTableWord nbits (encodeWord i) = some i := by
  have hword : encodeWord i < 2 ^ nbits :=
    calc encodeWord i < 2000 := wordOfCell_lt (encodeCell_wf h)
      _ ≤ 2 ^ 11 := by decide
      _ ≤ 2 ^ nbits := Nat.pow_le_pow_right (by decide) hbits
  simp only [decodeTableWord, Nat.mod_eq_of_lt hword, decodeWord_encodeWord h]

/-- Settles O7: the decoder inverts the encoder on well-formed instructions, and the numbering of words on their
cells. -/
theorem decodeEncodeRoundTrip : Obligations.DecodeEncodeRoundTrip := by
  unfold Obligations.DecodeEncodeRoundTrip
  exact fun i h => ⟨encodeCell_wf h, decodeCell_encodeCell h, fun _ => decodeTableWord_encodeWord h⟩

/-- Settles O8: the cell's one instruction is the decoder's answer, which inverts the encoder on every other. -/
theorem everyCellDecodesOnce : Obligations.EveryCellDecodesOnce := by
  unfold Obligations.EveryCellDecodesOnce
  intro c hc
  obtain ⟨i, hi⟩ := decodeCell_isOk hc
  obtain ⟨hwf, henc⟩ := decodeCell_wf hc hi
  refine ⟨i, hwf, hi, henc, fun j hj hcell => ?_⟩
  have hdec : decodeCell c = .ok j := hcell ▸ decodeCell_encodeCell hj
  exact Except.ok.inj (hdec.symm.trans hi)

/-- Settles O10: each word unpacks to the fields of its row. -/
theorem writtenWordsDecode : Obligations.WrittenWordsDecode := by
  unfold Obligations.WrittenWordsDecode
  exact ⟨rfl, rfl, rfl, rfl, rfl, rfl, rfl, rfl, rfl, rfl, rfl, rfl, rfl, rfl, rfl⟩

end Sys2Proof
end

section
/-! PROOFS. The invariant (10 R20 to R31): each register write that keeps it, then every instruction, step and run. -/

open Sys2Proof.Claims

namespace Sys2Proof.Machine

theorem State.Inv.setAcc {s : State} (h : s.Inv) {v : Int} (hv : InThreeDigits v) : (s.setAcc v).Inv :=
  { h with accInDomain := hv }

theorem State.Inv.setPc {s : State} (h : s.Inv) {a : Nat} (ha : a ≤ 100) : (s.setPc a).Inv :=
  { h with pcInRange := ha }

theorem State.Inv.advancePc {s : State} (h : s.Inv) (hpc : s.pc < 100) : s.advancePc.Inv := h.setPc hpc

theorem State.Inv.setHalted {s : State} (h : s.Inv) (b : Bool) : (s.setHalted b).Inv := { h with }

theorem State.Inv.setInq {s : State} (h : s.Inv) {q : Queue} (hq : Queue.inRange q = true) : (s.setInq q).Inv :=
  { h with inqInDomain := hq }

theorem State.Inv.setOutq {s : State} (h : s.Inv) {q : Queue} (hq : Queue.inRange q = true) : (s.setOutq q).Inv :=
  { h with outqInDomain := hq }

/-- Storing a value of three digits below address 100 keeps the domain (10 R22). -/
theorem State.Inv.setMem_put {s : State} (h : s.Inv) {a : Nat} (ha : a < 100) {v : Int} (hv : InThreeDigits v) :
    (s.setMem (Memory.put s.mem a (.data v))).Inv :=
  { h with
    memCanonical := Memory.put_wf s.mem a _ ha h.memCanonical
    memInDomain := Memory.put_cellsOk s.mem a _ (decide_eq_true hv) h.memInDomain }

/-- The content of every cell of a machine in the domain has three digits (10 R22). -/
theorem State.Inv.content_range {s : State} (h : s.Inv) (a : Nat) : InThreeDigits (Memory.cellAt s.mem a).content :=
  MemCell.content_range (Memory.cellAt_ok s.mem a h.memInDomain)

theorem inThreeDigits_emod (r : Int) : InThreeDigits (r % 1000) := by
  unfold InThreeDigits
  omega

theorem Queue.inRange_cons {v : Int} {rest : Queue} :
    Queue.inRange (v :: rest) = true ↔ InThreeDigits v ∧ Queue.inRange rest = true := by
  simp [Queue.inRange]

theorem Queue.inRange_append_singleton {q : Queue} {v : Int} (hq : Queue.inRange q = true) (hv : InThreeDigits v) :
    Queue.inRange (q ++ [v]) = true := by
  simp only [Queue.inRange, List.all_append, Bool.and_eq_true]
  exact ⟨hq, by simpa using hv⟩

theorem State.Inv.setPc_if {s : State} (h : s.Inv) (taken : Bool) {a : Nat} (ha : addressOk a = true) :
    (if taken then s.setPc a else s).Inv := by
  cases taken with
  | true => exact h.setPc (Nat.le_succ_of_le (Laws.PackedRange.of_operand ha))
  | false => exact h

/-- A well-formed instruction that completes keeps the invariant. -/
theorem exec_next_inv {i : Instr} {s t : State} (hs : s.Inv) (hi : i.wf = true) (h : exec i s = .next t) : t.Inv := by
  rcases exec_next_cases h with ⟨a, rfl, rfl⟩ | ⟨a, rfl, -, rfl⟩ | ⟨a, rfl, -, rfl⟩ | ⟨a, rfl, ha, rfl⟩ |
    ⟨a, rfl, -, rfl⟩ | ⟨a, rfl, rfl⟩ | ⟨a, rfl, rfl⟩ | ⟨a, rfl, rfl⟩ | ⟨v, rest, rfl, hq, rfl⟩ | ⟨rfl, rfl⟩
  · exact hs.setHalted true
  · exact hs.setAcc (inThreeDigits_emod _)
  · exact hs.setAcc (inThreeDigits_emod _)
  · exact hs.setMem_put ha hs.accInDomain
  · exact hs.setAcc (hs.content_range a)
  · exact hs.setPc_if true hi
  · exact hs.setPc_if _ hi
  · exact hs.setPc_if _ hi
  · obtain ⟨hv, hrest⟩ := Queue.inRange_cons.mp (hq ▸ hs.inqInDomain)
    exact (hs.setInq hrest).setAcc hv
  · exact hs.setOutq (Queue.inRange_append_singleton hs.outqInDomain hs.accInDomain)

/-- An instruction that fails leaves its state as it is, but for the flag that a data cell raises. -/
theorem exec_fault_left_cases {i : Instr} {s : State} {f : Fault} (h : exec i s = .fault f) :
    f.left = s ∨ f.left = s.setHalted true := by
  rcases exec_fault_cases h with ⟨a, -, -, rfl⟩ | ⟨-, -, rfl⟩ | ⟨a, -, rfl⟩ | ⟨a, -, rfl⟩ | ⟨v, -, rfl⟩
  · exact .inl rfl
  · exact .inl rfl
  · exact .inl rfl
  · exact .inl rfl
  · exact .inr rfl

/-- A failed step leaves the state unchanged, or with pc advanced, or with pc advanced and the flag raised
(60 R309). -/
theorem step_fault_left_cases {s : State} {f : Fault} (h : step s = .fault f) :
    f.left = s ∨ (s.pc < 100 ∧ (f.left = s.advancePc ∨ f.left = s.advancePc.setHalted true)) := by
  obtain ⟨-, ⟨-, rfl⟩ | ⟨o, a, hpc, -, -, rfl⟩ | ⟨i, hpc, -, hx⟩⟩ := step_fault_cases h
  · exact .inl rfl
  · exact .inr ⟨hpc, .inl rfl⟩
  · exact .inr ⟨hpc, exec_fault_left_cases hx⟩

theorem step_next_inv {s t : State} (hs : s.Inv) (h : step s = .next t) : t.Inv := by
  rcases step_next_cases h with ⟨-, rfl⟩ | ⟨-, i, hpc, hd, hx⟩
  · exact hs
  · have hwf : i.wf = true := (decodeCell_wf (Memory.cellAt_ok s.mem s.pc hs.memInDomain) hd).1
    exact exec_next_inv (hs.advancePc hpc) hwf hx

theorem step_fault_left_inv {s : State} {f : Fault} (hs : s.Inv) (h : step s = .fault f) : f.left.Inv := by
  rcases step_fault_left_cases h with hleft | ⟨hpc, hleft | hleft⟩ <;> rw [hleft]
  · exact hs
  · exact hs.advancePc hpc
  · exact (hs.advancePc hpc).setHalted true

/-- Settles O2: each domain holds of the reset value. -/
theorem resetMeetsInvariant : Obligations.ResetMeetsInvariant := by
  unfold Obligations.ResetMeetsInvariant
  exact ⟨Memory.reset_wf, rfl, by decide, Nat.zero_le _, rfl, rfl, rfl⟩

/-- Settles O3: a decoded cell of the domain is a well-formed instruction, and a failure leaves no new value. -/
theorem stepKeepsInvariant : Obligations.StepKeepsInvariant := by
  unfold Obligations.StepKeepsInvariant
  exact fun s hs => keeps_step (fun _ => step_next_inv hs) (fun _ => step_fault_left_inv hs)

/-- Settles O4, by induction on the number of steps. -/
theorem runsKeepInvariant : Obligations.RunsKeepInvariant := by
  unfold Obligations.RunsKeepInvariant
  exact fun n s => stepMany_keeps stepKeepsInvariant n s

/-- Settles O1: the values are those of the configuration, and no cell is listed. -/
theorem resetLeavesTheseValues : Obligations.ResetLeavesTheseValues := by
  unfold Obligations.ResetLeavesTheseValues
  exact ⟨rfl, rfl, rfl, rfl, fun _ => rfl, rfl, rfl⟩

end Sys2Proof.Machine
end

section
/-! PROOFS. Frames (10 R20 to R31): what each instruction leaves unchanged, and what therefore no run changes. -/

open Sys2Proof.Claims

namespace Sys2Proof.Machine

/-- A branch, taken or not, is one write of pc. -/
theorem setPc_if_eq (taken : Bool) (a : Nat) (s : State) :
    (if taken then s.setPc a else s) = s.setPc (if taken then a else s.pc) := by
  cases taken <;> rfl

/-- STA changes no cell but the one it addresses (20 R55). -/
theorem cellAt_put_of_ne_sta {a b : Nat} (h : Instr.sta a ≠ .sta b) (m : Memory) (c : MemCell) :
    Memory.cellAt (Memory.put m a c) b = Memory.cellAt m b :=
  Memory.cellAt_put_other (fun hab => h (congrArg Instr.sta hab.symm)) m c

/-- Settles O33: each shape of a completed instruction writes the elements that its own row names. -/
theorem instructionFrames : Obligations.InstructionFrames := by
  unfold Obligations.InstructionFrames
  intro i s t h
  rcases exec_next_cases h with ⟨a, rfl, rfl⟩ | ⟨a, rfl, -, rfl⟩ | ⟨a, rfl, -, rfl⟩ | ⟨a, rfl, ha, rfl⟩ |
    ⟨a, rfl, -, rfl⟩ | ⟨a, rfl, rfl⟩ | ⟨a, rfl, rfl⟩ | ⟨a, rfl, rfl⟩ | ⟨v, rest, rfl, -, rfl⟩ | ⟨rfl, rfl⟩
  case inr.inr.inr.inl =>
    exact ⟨fun _ _ _ _ => rfl, fun _ _ _ => rfl, rfl, fun _ => rfl, fun _ => rfl, fun _ => rfl,
      fun b hb => cellAt_put_of_ne_sta hb s.mem _, fun hsta => absurd rfl (hsta a), Memory.put_wf s.mem a _ ha⟩
  all_goals simp [setPc_if_eq]

/-- No instruction that completes changes the overflow flag (10 R25). -/
theorem exec_next_ovf {i : Instr} {s t : State} (h : exec i s = .next t) : t.ovf = s.ovf := by
  obtain ⟨-, -, hovf, -⟩ := instructionFrames i s t h
  exact hovf

/-- Only STA writes memory, and it writes a data cell (46 R240). -/
theorem exec_next_mem_cases {i : Instr} {s t : State} (h : exec i s = .next t) :
    t.mem = s.mem ∨ ∃ a, t.mem = Memory.put s.mem a (.data s.acc) := by
  rcases exec_next_cases h with ⟨a, -, rfl⟩ | ⟨a, -, -, rfl⟩ | ⟨a, -, -, rfl⟩ | ⟨a, -, -, rfl⟩ | ⟨a, -, -, rfl⟩ |
    ⟨a, -, rfl⟩ | ⟨a, -, rfl⟩ | ⟨a, -, rfl⟩ | ⟨v, rest, -, -, rfl⟩ | ⟨-, rfl⟩
  case inr.inr.inr.inl => exact .inr ⟨a, rfl⟩
  all_goals simp [setPc_if_eq]

/-- Only INP takes from the input, and it takes the head into the accumulator (48 R260). -/
theorem exec_next_inq_cases {i : Instr} {s t : State} (h : exec i s = .next t) :
    t.inq = s.inq ∨ (i = .inp ∧ s.inq = t.acc :: t.inq) := by
  by_cases hi : i = .inp
  · subst hi
    cases hq : s.inq with
    | nil => simp [exec_inp_of_empty hq] at h
    | cons v rest =>
      rw [exec_inp_of_cons hq] at h
      cases h
      exact .inr ⟨rfl, rfl⟩
  · obtain ⟨-, -, -, -, hinq, -⟩ := instructionFrames i s t h
    exact .inl (hinq hi)

/-- Only OUT adds to the output, and it appends the accumulator (48 R261). -/
theorem exec_next_outq_cases {i : Instr} {s t : State} (h : exec i s = .next t) :
    t.outq = s.outq ∨ (i = .out ∧ t.outq = s.outq ++ [s.acc]) := by
  by_cases hi : i = .out
  · subst hi
    cases h
    exact .inr ⟨rfl, rfl⟩
  · obtain ⟨-, -, -, -, -, houtq, -⟩ := instructionFrames i s t h
    exact .inl (houtq hi)

theorem keeps_mono {P Q : State → Prop} (h : ∀ t, P t → Q t) {o : Host.Outcome State Fault Refusal}
    (ho : keeps P o) : keeps Q o := by
  cases o with
  | next t => exact h t ho
  | fault f => exact h f.left ho
  | refused r => exact ho

/-- A relation that the fetch, the raised flag and every completed instruction keep holds from the start of a run to
every state it reaches and to the state its failure leaves. -/
theorem stepMany_keeps_of_exec {R : State → State → Prop} (hrefl : ∀ s, R s s)
    (htrans : ∀ {s t u}, R s t → R t u → R s u) (hadvance : ∀ s, R s s.advancePc)
    (hhalt : ∀ s, R s (s.setHalted true)) (hexec : ∀ {i s t}, exec i s = .next t → R s t) (n : Nat) (s : State) :
    keeps (R s) (stepMany n s) := by
  have hnext : ∀ u v, step u = .next v → R u v := by
    intro u v h
    rcases step_next_cases h with ⟨-, rfl⟩ | ⟨-, i, -, -, hx⟩
    · exact hrefl _
    · exact htrans (hadvance u) (hexec hx)
  have hfault : ∀ u f, step u = .fault f → R u f.left := by
    intro u f h
    rcases step_fault_left_cases h with hleft | ⟨-, hleft | hleft⟩ <;> rw [hleft]
    · exact hrefl u
    · exact hadvance u
    · exact htrans (hadvance u) (hhalt _)
  have hstep : ∀ u, R s u → keeps (R s) (step u) :=
    fun u hu => keeps_mono (fun _ => htrans hu) (keeps_step (P := R u) (hnext u) (hfault u))
  exact stepMany_keeps hstep n s (hrefl s)

/-- The test ADD and SUB make never succeeds, so an instruction leaves the overflow flag, completed or failed. -/
theorem exec_keeps_ovf (i : Instr) (s : State) : keeps (fun t => t.ovf = s.ovf) (exec i s) := by
  cases h : exec i s with
  | next t => exact exec_next_ovf h
  | fault f => rcases exec_fault_left_cases h with hleft | hleft <;> simp [keeps, hleft]
  | refused r => exact exec_ne_refused i s r h

/-- Settles O6: the reduced result is in range, and the flag is a frame of every instruction. -/
theorem overflowFlagNeverChanges : Obligations.OverflowFlagNeverChanges := by
  unfold Obligations.OverflowFlagNeverChanges
  exact ⟨fallsOutside_reduced, exec_keeps_ovf, stepMany_keeps_of_exec (R := fun s t => t.ovf = s.ovf) (fun _ => rfl)
    (fun hst htu => htu.trans hst) (fun _ => rfl) (fun _ => rfl) exec_next_ovf⟩

/-- A completed instruction makes no instruction cell, since the one write of memory makes a data cell (20 R61). -/
theorem instr_cell_of_exec_next {i : Instr} {s t : State} (h : exec i s = .next t) {a o b : Nat}
    (hc : Memory.cellAt t.mem a = .instr o b) : Memory.cellAt s.mem a = .instr o b := by
  rcases exec_next_mem_cases h with hmem | ⟨c, hmem⟩
  · rwa [hmem] at hc
  · rw [hmem] at hc
    by_cases hac : a = c
    · subst hac
      simp at hc
    · rwa [Memory.cellAt_put_other hac] at hc

/-- Settles O35: no fetch or failure writes memory, and STA makes data cells. -/
theorem instructionCellsOnlyShrink : Obligations.InstructionCellsOnlyShrink := by
  unfold Obligations.InstructionCellsOnlyShrink
  exact stepMany_keeps_of_exec
    (R := fun s t => ∀ a o b, Memory.cellAt t.mem a = .instr o b → Memory.cellAt s.mem a = .instr o b)
    (fun _ _ _ _ h => h) (fun hst htu a o b h => hst a o b (htu a o b h)) (fun _ _ _ _ h => h) (fun _ _ _ _ h => h)
    (fun h _ _ _ => instr_cell_of_exec_next h)

/-- A data cell stays one along a run (20 R61). -/
theorem data_cell_of_stepMany {n : Nat} {t u : State} {a : Nat} {v : Int} (h : stepMany n t = .next u)
    (hc : Memory.cellAt t.mem a = .data v) : ∃ w, Memory.cellAt u.mem a = .data w := by
  have hshrink := instructionCellsOnlyShrink n t
  rw [h] at hshrink
  cases hu : Memory.cellAt u.mem a with
  | data w => exact ⟨w, rfl⟩
  | instr o b => cases hc.symm.trans (hshrink a o b hu)

/-- Settles O36: the stored cell is data from then on, and a data cell never executes. -/
theorem storedValueNeverExecutes : Obligations.StoredValueNeverExecutes := by
  unfold Obligations.StoredValueNeverExecutes
  intro s a t n u hsta hrun
  have ha : a < 100 := by
    by_contra hge
    simp [exec_sta_of_ge (Nat.le_of_not_lt hge)] at hsta
  rw [exec_sta_of_lt ha] at hsta
  cases hsta
  obtain ⟨w, hw⟩ := data_cell_of_stepMany hrun (Memory.cellAt_put_same s.mem a (.data s.acc))
  refine ⟨⟨w, hw⟩, ?_⟩
  rintro hrunning rfl
  obtain ⟨-, hdata⟩ := dataCellNeverExecutes
  obtain ⟨l, hstep, -⟩ := hdata u w ⟨hrunning, ha, hw⟩
  exact ⟨l, hstep⟩

/-- Of the cells, exactly `I(9, 1)` decodes to INP (48 R260). -/
theorem decodeCell_eq_inp_iff (c : MemCell) : decodeCell c = .ok .inp ↔ c = .instr 9 1 := by
  constructor
  · exact fun h => (encodeCell_of_decodeCell h).symm
  · rintro rfl
    rfl

/-- One step takes the head of the input by INP or leaves the input. -/
theorem step_next_inq_cases {s t : State} (h : step s = .next t) :
    t.inq = s.inq ∨ (fetches s (.instr 9 1) ∧ s.inq = t.acc :: t.inq) := by
  rcases step_next_cases h with ⟨-, rfl⟩ | ⟨hrun, i, hpc, hd, hx⟩
  · exact .inl rfl
  · refine (exec_next_inq_cases hx).imp_right ?_
    rintro ⟨rfl, hq⟩
    exact ⟨⟨hrun, hpc, (decodeCell_eq_inp_iff _).mp hd⟩, hq⟩

/-- One step appends the accumulator to the output by OUT or leaves the output. -/
theorem step_next_outq_cases {s t : State} (h : step s = .next t) :
    t.outq = s.outq ∨ (fetches s (.instr 9 2) ∧ t.outq = s.outq ++ [s.acc]) := by
  rcases step_next_cases h with ⟨-, rfl⟩ | ⟨hrun, i, hpc, hd, hx⟩
  · exact .inl rfl
  · refine (exec_next_outq_cases hx).imp_right ?_
    rintro ⟨rfl, hq⟩
    exact ⟨⟨hrun, hpc, (decodeCell_eq_out_iff _).mp hd⟩, hq⟩

theorem exec_next_inq_suffix {i : Instr} {s t : State} (h : exec i s = .next t) : t.inq <:+ s.inq := by
  rcases exec_next_inq_cases h with hq | ⟨-, hq⟩ <;> rw [hq]
  exact List.suffix_cons _ _

theorem exec_next_outq_prefix {i : Instr} {s t : State} (h : exec i s = .next t) : s.outq <+: t.outq := by
  rcases exec_next_outq_cases h with hq | ⟨-, hq⟩ <;> rw [hq]
  exact List.prefix_append _ _

/-- Settles O37: only INP and OUT move a queue, by one element, and suffixes and prefixes compose along a run. -/
theorem queuesMoveInOrder : Obligations.QueuesMoveInOrder := by
  unfold Obligations.QueuesMoveInOrder
  refine ⟨fun s t h => ⟨step_next_inq_cases h, step_next_outq_cases h⟩, ?_⟩
  exact stepMany_keeps_of_exec (R := fun s t => t.inq <:+ s.inq ∧ s.outq <+: t.outq)
    (fun _ => ⟨List.suffix_rfl, List.prefix_rfl⟩)
    (fun hst htu => ⟨htu.1.trans hst.1, hst.2.trans htu.2⟩)
    (fun _ => ⟨List.suffix_rfl, List.prefix_rfl⟩) (fun _ => ⟨List.suffix_rfl, List.prefix_rfl⟩)
    (fun h => ⟨exec_next_inq_suffix h, exec_next_outq_prefix h⟩)

/-- Settles O34: each of the three reads one content, and writes the accumulator alone. -/
theorem dataAccessIgnoresCellKind : Obligations.DataAccessIgnoresCellKind := by
  unfold Obligations.DataAccessIgnoresCellKind
  intro s m a hcontent i hi ha
  have hread : (Memory.cellAt (s.setMem m).mem a).content = (Memory.cellAt s.mem a).content := hcontent a
  rcases hi with rfl | rfl | rfl
  · exact ⟨_, exec_lda_of_lt ha s, (exec_lda_of_lt ha (s.setMem m)).trans (hread ▸ rfl)⟩
  · exact ⟨_, exec_add_of_lt ha s, (exec_add_of_lt ha (s.setMem m)).trans (hread ▸ rfl)⟩
  · exact ⟨_, exec_sub_of_lt ha s, (exec_sub_of_lt ha (s.setMem m)).trans (hread ▸ rfl)⟩

end Sys2Proof.Machine
end

section
/-! PROOFS. The cycle (43 R193 to R197): the instruction a step runs, a word placed for the fetch, and the end of
memory. -/

namespace Sys2Proof.Machine

/-- Settles O11: the fetch advances pc, and the decoder's answer is executed. -/
theorem stepRunsDecodedInstruction : Obligations.StepRunsDecodedInstruction := by
  unfold Obligations.StepRunsDecodedInstruction
  intro s i hrun hpc hi
  rw [step_of_running hrun, cycle_of_decoded hpc hi]
  rfl

/-- A word that decodes names a cell that decodes alike. -/
theorem cellOfWord_of_decodeTableWord {nbits w : Nat} {i : Instr} (h : decodeTableWord nbits w = some i) :
    ∃ c, cellOfWord (w % 2 ^ nbits) = some c ∧ decodeCell c = .ok i := by
  unfold decodeTableWord decodeWord at h
  cases hc : cellOfWord (w % 2 ^ nbits) with
  | none => simp [hc] at h
  | some c =>
    cases hd : decodeCell c with
    | error r => simp [hc, hd, Except.mapError] at h
    | ok j =>
      simp only [hc, hd, Except.mapError, Option.some.injEq] at h
      exact ⟨c, rfl, h ▸ hd⟩

theorem withFetchWord_of_cellOfWord {s : State} {nbits w : Nat} {c : MemCell} (hpc : s.pc < 100)
    (hc : cellOfWord (w % 2 ^ nbits) = some c) :
    s.withFetchWord nbits w = (s.setMem (Memory.put s.mem s.pc c)).setHalted false := by
  simp only [State.withFetchWord, hc, (inBounds_iff s.pc).mpr hpc, if_true]

/-- Settles O12: the placed cell is the one the next cycle fetches. -/
theorem placedWordRunsNext : Obligations.PlacedWordRunsNext := by
  unfold Obligations.PlacedWordRunsNext
  intro s nbits w i hpc hi
  obtain ⟨c, hc, hd⟩ := cellOfWord_of_decodeTableWord hi
  rw [withFetchWord_of_cellOfWord hpc hc]
  refine ⟨Memory.put s.mem s.pc c, rfl, fun b hb => Memory.cellAt_put_other hb s.mem c, ?_⟩
  have hfetched : decodeCell (Memory.cellAt (Memory.put s.mem s.pc c) s.pc) = .ok i := by
    rw [Memory.cellAt_put_same, hd]
  exact stepRunsDecodedInstruction ((s.setMem (Memory.put s.mem s.pc c)).setHalted false) i rfl hpc hfetched

/-- An instruction that is no taken branch leaves pc where the fetch put it (43 R192). -/
theorem exec_next_pc_of_not_taken {i : Instr} {s t : State} (h : exec i s = .next t) (hbra : ∀ a, i ≠ .bra a)
    (hbrz : ∀ a, i = .brz a → ¬ (s.acc = 0 ∧ s.ovf = false)) (hbrp : ∀ a, i = .brp a → s.ovf = true) :
    t.pc = s.pc := by
  rcases exec_next_pc_cases h with hpc | ⟨a, rfl | rfl | rfl, -⟩
  · exact hpc
  · exact absurd rfl (hbra a)
  · rw [exec_brz, if_neg (hbrz a rfl)] at h
    cases h
    rfl
  · rw [exec_brp, if_neg (by simp [hbrp a rfl])] at h
    cases h
    rfl

theorem step_of_pc_eq_100 {s : State} (hrun : s.halted = false) (hpc : s.pc = 100) :
    step s = .fault (.outOfBounds 100 s) := by
  rw [step_of_running hrun, cycle_of_ge hpc.ge, hpc]

/-- Settles O15: the fetch from cell 99 leaves pc at 100, and nothing but HLT or a taken branch changes that. -/
theorem cellNinetyNineMustNotFallThrough : Obligations.CellNinetyNineMustNotFallThrough := by
  unfold Obligations.CellNinetyNineMustNotFallThrough
  intro s t i hrun hpc hi hstep hhlt hbra hbrz hbrp
  rw [← hpc] at hi
  rw [step_of_running hrun, cycle_of_decoded (by omega) hi] at hstep
  obtain ⟨-, -, -, hhalted, -⟩ := instructionFrames i s.advancePc t hstep
  have htrun : t.halted = false := (hhalted hhlt).trans hrun
  have htpc : t.pc = 100 :=
    (exec_next_pc_of_not_taken hstep hbra hbrz hbrp).trans (congrArg (· + 1) hpc)
  exact ⟨htpc, step_of_pc_eq_100 htrun htpc⟩

end Sys2Proof.Machine
end

section
/-! PROOFS. Failures (60 R300 to R313): the cause and the state left of each, in the domain. -/

open Sys2Proof.Claims

namespace Sys2Proof.Machine

/-- An instruction with a memory operand that a cell of the domain holds stays inside memory (20 R54). -/
theorem exec_fault_cases_of_wf {i : Instr} {s : State} {f : Fault} (hi : i.wf = true) (h : exec i s = .fault f) :
    (i = .inp ∧ s.inq = [] ∧ f = .emptyQueue s) ∨
    (∃ a, i = .illegalOp4 a ∧ f = .invalidOpcode 4 a s) ∨
    (∃ a, i = .illegalOp9 a ∧ f = .invalidOpcode 9 a s) ∨
    (∃ v, i = .dat v ∧ f = .halt (s.setHalted true)) := by
  rcases exec_fault_cases h with ⟨a, hop, ha, -⟩ | hcases
  · have haddr : a ≤ 99 := by
      rcases hop with rfl | rfl | rfl | rfl <;> exact Laws.PackedRange.of_operand hi
    omega
  · exact hcases

/-- Every failure of a step in the domain, with its cause and the state it leaves. -/
theorem step_fault_cases_of_inv {s : State} {f : Fault} (hs : s.Inv) (h : step s = .fault f) :
    (s.pc = 100 ∧ f = .outOfBounds 100 s) ∨
    (fetches s (.instr 9 1) ∧ s.inq = [] ∧ f = .emptyQueue s.advancePc) ∨
    (∃ o a, fetches s (.instr o a) ∧ (o = 4 ∨ (o = 9 ∧ a ≠ 1 ∧ a ≠ 2)) ∧ f = .invalidOpcode o a s.advancePc) ∨
    (∃ v, fetches s (.data v) ∧ f = .halt (s.advancePc.setHalted true)) := by
  have hcell : (Memory.cellAt s.mem s.pc).wf = true := Memory.cellAt_ok s.mem s.pc hs.memInDomain
  obtain ⟨hrun, ⟨hpc, rfl⟩ | ⟨o, a, -, hc, ho, -⟩ | ⟨i, hpc, hd, hx⟩⟩ := step_fault_cases h
  · have hend : s.pc = 100 := Nat.le_antisymm hs.pcInRange hpc
    exact .inl ⟨hend, by rw [hend]⟩
  · rw [hc, MemCell.wf_instr_iff] at hcell
    omega
  · right
    have hfetch : fetches s (encodeCell i) := ⟨hrun, hpc, (encodeCell_of_decodeCell hd).symm⟩
    obtain ⟨hwf, -⟩ := decodeCell_wf hcell hd
    rcases exec_fault_cases_of_wf hwf hx with ⟨rfl, hq, rfl⟩ | ⟨a, rfl, rfl⟩ | ⟨a, rfl, rfl⟩ | ⟨v, rfl, rfl⟩
    · exact .inl ⟨hfetch, hq, rfl⟩
    · exact .inr (.inl ⟨4, a, hfetch, .inl rfl, rfl⟩)
    · simp only [Instr.wf, Bool.and_eq_true, bne_iff_ne] at hwf
      obtain ⟨⟨-, h1⟩, h2⟩ := hwf
      exact .inr (.inl ⟨9, a, hfetch, .inr ⟨rfl, h1, h2⟩, rfl⟩)
    · exact .inr (.inr ⟨v, hfetch, rfl⟩)

/-- Settles O20: each of the failures of the domain carries the state its row names. -/
theorem failuresLeaveTheseStates : Obligations.FailuresLeaveTheseStates := by
  unfold Obligations.FailuresLeaveTheseStates
  intro s f hs h
  rcases step_fault_cases_of_inv hs h with ⟨-, rfl⟩ | ⟨-, hq, rfl⟩ | ⟨o, a, -, -, rfl⟩ | ⟨v, -, rfl⟩
  · exact ⟨fun _ => rfl, nofun, nofun, nofun⟩
  · exact ⟨nofun, nofun, nofun, fun _ => ⟨rfl, hq⟩⟩
  · exact ⟨nofun, nofun, fun _ => rfl, nofun⟩
  · exact ⟨nofun, fun _ => rfl, nofun, nofun⟩

theorem step_next_or_fault (s : State) : (∃ t, step s = .next t) ∨ ∃ f, step s = .fault f := by
  cases h : step s with
  | next t => exact .inl ⟨t, rfl⟩
  | fault f => exact .inr ⟨f, rfl⟩
  | refused r => exact absurd h (step_ne_refused s r)

/-- The illegal groups fail with InvalidOpcode (43 R196). -/
theorem step_of_fetches_illegal {s : State} {o a : Nat} (h : fetches s (.instr o a))
    (hillegal : o = 4 ∨ (o = 9 ∧ a ≠ 1 ∧ a ≠ 2)) : step s = .fault (.invalidOpcode o a s.advancePc) := by
  rcases hillegal with rfl | ⟨rfl, h1, h2⟩
  · rw [step_of_fetches h rfl, exec_illegalOp4]
  · rw [step_of_fetches h (decodeCell_nine_other h1 h2), exec_illegalOp9]

theorem step_of_fetches_inp_of_empty {s : State} (h : fetches s (.instr 9 1)) (hq : s.inq = []) :
    step s = .fault (.emptyQueue s.advancePc) := by
  rw [step_of_fetches h rfl, exec_inp_of_empty (s := s.advancePc) hq]

/-- Settles O21: the failures of the domain are listed once, and each cause alone makes its failure. -/
theorem stepFailsExactlyWhen : Obligations.StepFailsExactlyWhen := by
  unfold Obligations.StepFailsExactlyWhen
  intro s hs hrun
  refine ⟨step_next_or_fault s, ⟨?_, fun hpc => ⟨100, s, step_of_pc_eq_100 hrun hpc⟩⟩, ⟨?_, ?_⟩,
    ⟨?_, fun ⟨o, a, h, hillegal⟩ => ⟨o, a, _, step_of_fetches_illegal h hillegal⟩⟩,
    ⟨?_, fun ⟨h, hq⟩ => ⟨_, step_of_fetches_inp_of_empty h hq⟩⟩⟩
  · rintro ⟨a, l, h⟩
    rcases step_fault_cases_of_inv hs h with ⟨hpc, -⟩ | ⟨-, -, ⟨⟩⟩ | ⟨_, _, -, -, ⟨⟩⟩ | ⟨_, -, ⟨⟩⟩
    exact hpc
  · rintro ⟨l, h⟩
    rcases step_fault_cases_of_inv hs h with ⟨-, ⟨⟩⟩ | ⟨-, -, ⟨⟩⟩ | ⟨_, _, -, -, ⟨⟩⟩ | ⟨v, hfetch, -⟩
    exact ⟨v, hfetch⟩
  · rintro ⟨v, h⟩
    obtain ⟨-, hdata⟩ := dataCellNeverExecutes
    obtain ⟨l, hl, -⟩ := hdata s v h
    exact ⟨l, hl⟩
  · rintro ⟨o, a, l, h⟩
    rcases step_fault_cases_of_inv hs h with ⟨-, ⟨⟩⟩ | ⟨-, -, ⟨⟩⟩ | ⟨o', a', hfetch, hillegal, -⟩ | ⟨_, -, ⟨⟩⟩
    exact ⟨o', a', hfetch, hillegal⟩
  · rintro ⟨l, h⟩
    rcases step_fault_cases_of_inv hs h with ⟨-, ⟨⟩⟩ | ⟨hfetch, hq, -⟩ | ⟨_, _, -, -, ⟨⟩⟩ | ⟨_, -, ⟨⟩⟩
    exact ⟨hfetch, hq⟩

end Sys2Proof.Machine
end

section
/-! PROOFS. ADD against SUB on three digits (45 R233), and INP (48 R260). -/

open Sys2Proof.Claims

namespace Sys2Proof.Machine

/-- A sum of two values of three digits wraps at most once. -/
theorem add_emod_of_inThreeDigits {x v : Int} (hx : InThreeDigits x) (hv : InThreeDigits v) :
    (x + v) % 1000 = if x + v ≤ 999 then x + v else x + v - 1000 := by
  split <;> omega

/-- A difference of two values of three digits wraps at most once. -/
theorem sub_emod_of_inThreeDigits {x v : Int} (hx : InThreeDigits x) (hv : InThreeDigits v) :
    (x - v) % 1000 = if v ≤ x then x - v else x - v + 1000 := by
  split <;> omega

theorem add_emod_sub_emod {x : Int} (hx : InThreeDigits x) (v : Int) : ((x + v) % 1000 - v) % 1000 = x := by
  omega

theorem sub_emod_add_emod {x : Int} (hx : InThreeDigits x) (v : Int) : ((x - v) % 1000 + v) % 1000 = x := by
  omega

/-- SUB undoes ADD at the same address (45 R233). -/
theorem exec_sub_of_setAcc_add {s : State} {a : Nat} (ha : a < 100) (hacc : InThreeDigits s.acc) :
    exec (.sub a) (s.setAcc ((s.acc + (Memory.cellAt s.mem a).content) % 1000)) = .next s := by
  rw [exec_sub_of_lt ha, State.setAcc_mem, State.setAcc_acc, add_emod_sub_emod hacc]
  rfl

/-- ADD undoes SUB at the same address (45 R233). -/
theorem exec_add_of_setAcc_sub {s : State} {a : Nat} (ha : a < 100) (hacc : InThreeDigits s.acc) :
    exec (.add a) (s.setAcc ((s.acc - (Memory.cellAt s.mem a).content) % 1000)) = .next s := by
  rw [exec_add_of_lt ha, State.setAcc_mem, State.setAcc_acc, sub_emod_add_emod hacc]
  rfl

/-- Settles O25: each of the two writes the accumulator alone, so the other meets the same content again. -/
theorem addAndSubWrapAndAreInverse : Obligations.AddAndSubWrapAndAreInverse := by
  unfold Obligations.AddAndSubWrapAndAreInverse
  rintro s a v ha hacc rfl hv
  exact ⟨_, _, exec_add_of_lt ha s, exec_sub_of_lt ha s, add_emod_of_inThreeDigits hacc hv,
    sub_emod_of_inThreeDigits hacc hv, exec_sub_of_setAcc_add ha hacc, exec_add_of_setAcc_sub ha hacc⟩

/-- Settles O31: INP is one dequeue, with its value put into the accumulator. -/
theorem inpTakesHeadOfInput : Obligations.InpTakesHeadOfInput := by
  unfold Obligations.InpTakesHeadOfInput
  exact ⟨decodeCell_eq_inp_iff, controlAssembles_of_lookup (by decide), fun _ _ _ => exec_inp_of_cons,
    fun _ => exec_inp_of_empty⟩

end Sys2Proof.Machine
end

section
/-! PROOFS. Runs and observers (43 R200 to R202, 49 R279 to R281): `runToHalt` reads the end of a repeated
`stepOnce`. -/

namespace Sys2Proof.Machine

/-- How a run ends that `stepMany` answered so. -/
def runEndOf : Host.Outcome State Fault Refusal → RunEnd
  | .next t => if t.halted then .halted t else .notEnded t
  | .fault f => .failed f
  | .refused r => .refused r

/-- The loop of `runToHalt` is that of `stepMany`: a step of a halted machine changes nothing (43 R199). -/
theorem runToHalt_eq_runEndOf (n : Nat) (s : State) : runToHalt n s = runEndOf (stepMany n s) := by
  induction n generalizing s with
  | zero => rfl
  | succ n ih =>
    cases hrun : s.halted with
    | true => simp [runToHalt_of_halted hrun, stepMany_of_halted hrun, runEndOf, hrun]
    | false =>
      simp only [runToHalt, stepMany, stepOnce, ← step_of_running hrun, hrun]
      cases step s with
      | next t => exact ih t
      | fault f => rfl
      | refused r => rfl

theorem runEndOf_eq_halted_iff {o : Host.Outcome State Fault Refusal} {t : State} :
    runEndOf o = .halted t ↔ o = .next t ∧ t.halted = true := by
  cases o with
  | next u => grind [runEndOf]
  | fault f => simp [runEndOf]
  | refused r => simp [runEndOf]

theorem runEndOf_eq_notEnded_iff {o : Host.Outcome State Fault Refusal} {t : State} :
    runEndOf o = .notEnded t ↔ o = .next t ∧ t.halted = false := by
  cases o with
  | next u => grind [runEndOf]
  | fault f => simp [runEndOf]
  | refused r => simp [runEndOf]

theorem runEndOf_eq_failed_iff {o : Host.Outcome State Fault Refusal} {f : Fault} :
    runEndOf o = .failed f ↔ o = .fault f := by
  cases o with
  | next u => cases hu : u.halted <;> simp [runEndOf, hu]
  | fault g => simp [runEndOf]
  | refused r => simp [runEndOf]

theorem runToHalt_eq_halted_iff {n : Nat} {s t : State} :
    runToHalt n s = .halted t ↔ stepMany n s = .next t ∧ t.halted = true := by
  rw [runToHalt_eq_runEndOf, runEndOf_eq_halted_iff]

theorem runToHalt_eq_failed_iff {n : Nat} {s : State} {f : Fault} :
    runToHalt n s = .failed f ↔ stepMany n s = .fault f := by
  rw [runToHalt_eq_runEndOf, runEndOf_eq_failed_iff]

/-- A run that answered so, taken on for `k` further steps: only a completed one goes on (60 R318). -/
def continueFor (k : Nat) : Host.Outcome State Fault Refusal → Host.Outcome State Fault Refusal
  | .next t => stepMany k t
  | .fault f => .fault f
  | .refused r => .refused r

theorem stepMany_add (n k : Nat) (s : State) : stepMany (n + k) s = continueFor k (stepMany n s) := by
  induction n generalizing s with
  | zero => rw [Nat.zero_add, stepMany, continueFor]
  | succ n ih =>
    rw [Nat.succ_add]
    simp only [stepMany, stepOnce]
    cases step s with
    | next t => exact ih t
    | fault f => rfl
    | refused r => rfl

/-- Settles O38: `runToHalt` reads its end off `stepMany`, which a halted state and a failure both end. -/
theorem runToHaltRepeatsStepOnce : Obligations.RunToHaltRepeatsStepOnce := by
  unfold Obligations.RunToHaltRepeatsStepOnce
  refine ⟨fun _ _ _ => runToHalt_eq_halted_iff, fun n s t => ?_, fun _ _ _ => runToHalt_eq_failed_iff,
    fun n k s t h => ?_, fun n k s f h => ?_⟩
  · rw [runToHalt_eq_runEndOf, runEndOf_eq_notEnded_iff]
  · obtain ⟨hrun, hhalted⟩ := runToHalt_eq_halted_iff.mp h
    rw [runToHalt_eq_halted_iff, stepMany_add, hrun]
    exact ⟨stepMany_of_halted hhalted k, hhalted⟩
  · rw [runToHalt_eq_failed_iff, stepMany_add, runToHalt_eq_failed_iff.mp h]
    rfl

theorem stateSnapshot_memory_getElem? {a : Nat} (ha : a < 100) (s : State) :
    (stateSnapshot s).memory[a]? = some (Memory.cellAt s.mem a) := by
  simp [stateSnapshot, ha]

/-- Settles O48: each observer reads its element, and a failure leaves the flag raised exactly for Halt. -/
theorem observersShowState : Obligations.ObserversShowState := by
  unfold Obligations.ObserversShowState
  exact fun s => ⟨rfl, rfl, rfl, rfl, rfl, rfl, by simp [stateSnapshot],
    fun a ha => stateSnapshot_memory_getElem? ha s, fun f => step_fault_left_halted_iff⟩

end Sys2Proof.Machine
end

section
/-! PROOFS. The loader (49 R272 to R277): the cells it writes, the machine it answers, and the launches that fail or are
refused. -/

open Sys2Proof.Claims

namespace Sys2Proof.Machine

/-- The launch premises ask each pair to carry no mark and to have a `DAT` value of three digits. -/
theorem Code.launchable_iff (c : Code) :
    ((∃ x, c = Code.ofData x ∧ InThreeDigits x) ∨ ∃ o a, c = Code.ofPair o a) ↔
      c.isDegraded = false ∧ c.dataInRange = true := by
  obtain ⟨op, arg⟩ := c
  cases op <;> cases arg <;> simp [Code.ofData, Code.ofPair, Code.isDegraded, Code.dataInRange]

theorem launchable_iff (codes : List Code) (inputs : List Int) :
    launchable codes inputs ↔ codes.any Code.isDegraded = false ∧ codes.all Code.dataInRange = true ∧
      (inputs.all fun v => decide (InThreeDigits v)) = true := by
  simp only [launchable, Code.launchable_iff, List.any_eq_false, List.all_eq_true, decide_eq_true_eq,
    Bool.not_eq_true, forall_and, and_assoc]

/-- The constructor accepts only pairs whose cell is in the domain (40 R112). -/
theorem MemCell.wf_of_construct_pair {o a : Int} {cell : MemCell}
    (h : MemCell.construct none (some (o, a)) = .ok cell) : cell.wf = true := by
  by_cases hp : pairInRange o a
  · rw [MemCell.construct_of_pairInRange hp] at h
    cases h
    obtain ⟨ho, ho9, ha, ha99⟩ := hp
    rw [MemCell.wf_instr_iff]
    omega
  · simp [MemCell.construct_of_not_pairInRange hp] at h

/-- A pair within the launch premises becomes a cell of the domain. -/
theorem Code.toCell_wf {c : Code} {cell : MemCell} (hr : c.dataInRange = true) (h : c.toCell = .ok cell) :
    cell.wf = true := by
  obtain ⟨op, arg⟩ := c
  match op, arg with
  | .null, .value x =>
    cases h
    exact hr
  | .value o, .value a => exact MemCell.wf_of_construct_pair h
  | .degraded, _ => cases h
  | .null, .degraded | .null, .unspecified | .value _, .degraded | .value _, .unspecified => cases h

theorem loadCells_cons {first : Nat} {c : Code} {cell : MemCell} (h : c.toCell = .ok cell) (rest : List Code)
    (m : Memory) : loadCells first (c :: rest) m = loadCells (first + 1) rest (Memory.put m first cell) := by
  simp only [loadCells, h]

/-- A load that succeeds made a cell of its first pair and loaded the rest after it. -/
theorem loadCells_cons_eq_ok {first : Nat} {c : Code} {rest : List Code} {m m' : Memory}
    (h : loadCells first (c :: rest) m = .ok m') :
    ∃ cell, c.toCell = .ok cell ∧ loadCells (first + 1) rest (Memory.put m first cell) = .ok m' := by
  cases hc : c.toCell with
  | ok cell => exact ⟨cell, rfl, loadCells_cons hc rest m ▸ h⟩
  | error k => simp [loadCells, hc] at h

theorem loadCells_cellsOk {codes : List Code} {first : Nat} {m m' : Memory}
    (hr : codes.all Code.dataInRange = true) (h : loadCells first codes m = .ok m')
    (hm : Memory.cellsOk m = true) : Memory.cellsOk m' = true := by
  induction codes generalizing first m with
  | nil =>
    cases h
    exact hm
  | cons c rest ih =>
    simp only [List.all_cons, Bool.and_eq_true] at hr
    obtain ⟨cell, hc, hrest⟩ := loadCells_cons_eq_ok h
    exact ih hr.2 hrest (Memory.put_cellsOk m first cell (Code.toCell_wf hr.1 hc) hm)

/-- A load leaves the cells below its first address and above its last one (49 R273). -/
theorem loadCells_cellAt_outside {codes : List Code} {first b : Nat} {m m' : Memory}
    (h : loadCells first codes m = .ok m') (hb : b < first ∨ first + codes.length ≤ b) :
    Memory.cellAt m' b = Memory.cellAt m b := by
  induction codes generalizing first m with
  | nil =>
    cases h
    rfl
  | cons c rest ih =>
    obtain ⟨cell, -, hrest⟩ := loadCells_cons_eq_ok h
    rw [List.length_cons] at hb
    rw [ih hrest (by omega), Memory.cellAt_put_other (by omega)]

/-- Pair number `i` of a load is the cell `i` places after the first address (49 R273). -/
theorem loadCells_cellAt {codes : List Code} {first i : Nat} {m m' : Memory} {c : Code}
    (h : loadCells first codes m = .ok m') (hi : codes[i]? = some c) :
    c.toCell = .ok (Memory.cellAt m' (first + i)) := by
  induction codes generalizing first m i with
  | nil => cases hi
  | cons d rest ih =>
    obtain ⟨cell, hd, hrest⟩ := loadCells_cons_eq_ok h
    cases i with
    | zero =>
      cases hi
      rw [Nat.add_zero, loadCells_cellAt_outside hrest (.inl (Nat.lt_succ_self first)), Memory.cellAt_put_same, hd]
    | succ i =>
      rw [← Nat.succ_add_eq_add_succ]
      exact ih hrest hi

/-- A load succeeds when the constructor accepts every pair. -/
theorem exists_loadCells_eq_ok {codes : List Code} (h : ∀ c ∈ codes, ∃ cell, c.toCell = .ok cell) (first : Nat)
    (m : Memory) : ∃ m', loadCells first codes m = .ok m' := by
  induction codes generalizing first m with
  | nil => exact ⟨m, rfl⟩
  | cons c rest ih =>
    obtain ⟨cell, hc⟩ := h c List.mem_cons_self
    rw [loadCells_cons hc]
    exact ih (fun d hd => h d (List.mem_cons_of_mem c hd)) _ _

/-- A load fails when the constructor rejects one pair. -/
theorem exists_loadCells_eq_error {codes : List Code} {c : Code} (hmem : c ∈ codes)
    (hc : ∀ cell, c.toCell ≠ .ok cell) (first : Nat) (m : Memory) : ∃ k, loadCells first codes m = .error k := by
  cases h : loadCells first codes m with
  | error k => exact ⟨k, rfl⟩
  | ok m' =>
    obtain ⟨i, hi⟩ := List.mem_iff_getElem?.mp hmem
    exact absurd (loadCells_cellAt h hi) (hc _)

/-- The machine a load leaves (49 R273, 10 R35). -/
def loadedEngine (m : Memory) (inputs : List Int) : Engine := ⟨{ State.reset with mem := m, inq := inputs }, true⟩

theorem initializeMemory_of_not_fresh {e : Engine} (h : e ≠ Engine.fresh) (codes : List Code) (inputs : List Int) :
    initializeMemory codes inputs e = .refused .machineNotFresh :=
  if_pos h

theorem initializeMemory_of_degraded {codes : List Code} (h : codes.any Code.isDegraded = true) (inputs : List Int) :
    initializeMemory codes inputs Engine.fresh = .refused .degradedPair := by
  simp [initializeMemory, h]

/-- Of the launches that meet the premises, one of more than 100 pairs fails before anything is written (49 R275). -/
theorem initializeMemory_of_long {codes : List Code} {inputs : List Int} (h : launchable codes inputs)
    (hlen : 100 < codes.length) : initializeMemory codes inputs Engine.fresh = .fault .outOfBounds := by
  obtain ⟨hd, hr, hi⟩ := (launchable_iff codes inputs).mp h
  simp only [initializeMemory, hd, hr, hi, ne_eq, not_true_eq_false, Bool.not_true, Bool.false_eq_true, if_false,
    if_pos hlen]

/-- Of the launches that meet the premises, a short one whose cells are made answers the loaded machine (49 R273). -/
theorem initializeMemory_of_loadCells_ok {codes : List Code} {inputs : List Int} {m : Memory}
    (h : launchable codes inputs) (hlen : codes.length ≤ 100) (hm : loadCells 0 codes [] = .ok m) :
    initializeMemory codes inputs Engine.fresh = .next (loadedEngine m inputs) := by
  obtain ⟨hd, hr, hi⟩ := (launchable_iff codes inputs).mp h
  simp only [initializeMemory, hd, hr, hi, ne_eq, not_true_eq_false, Bool.not_true, Bool.false_eq_true, if_false,
    if_neg (Nat.not_lt.mpr hlen), Engine.fresh_state, State.reset_mem, hm, foldl_enqueue]
  rfl

/-- Of the launches that meet the premises, a short one with a cell that is not made fails (49 R276). -/
theorem initializeMemory_of_loadCells_error {codes : List Code} {inputs : List Int} {k : FailureKind}
    (h : launchable codes inputs) (hlen : codes.length ≤ 100) (hm : loadCells 0 codes [] = .error k) :
    initializeMemory codes inputs Engine.fresh = .fault .invalidCell := by
  obtain ⟨hd, hr, hi⟩ := (launchable_iff codes inputs).mp h
  simp only [initializeMemory, hd, hr, hi, ne_eq, not_true_eq_false, Bool.not_true, Bool.false_eq_true, if_false,
    if_neg (Nat.not_lt.mpr hlen), Engine.fresh_state, State.reset_mem, hm]

/-- A launch without its premises has no meaning, on any machine (49 R274). -/
theorem initializeMemory_of_not_launchable {codes : List Code} {inputs : List Int} (h : ¬ launchable codes inputs)
    (e : Engine) : ∃ r, initializeMemory codes inputs e = .refused r := by
  by_cases he : e = Engine.fresh
  · subst he
    cases hd : codes.any Code.isDegraded with
    | true => exact ⟨_, initializeMemory_of_degraded hd inputs⟩
    | false =>
      cases hr : codes.all Code.dataInRange with
      | false => exact ⟨.dataOutOfRange, by simp [initializeMemory, hd, hr]⟩
      | true =>
        have hi : (inputs.all fun v => decide (InThreeDigits v)) = false :=
          Bool.eq_false_iff.mpr fun hi => h ((launchable_iff codes inputs).mpr ⟨hd, hr, hi⟩)
        refine ⟨.inputOutOfRange, ?_⟩
        simp only [initializeMemory, hd, hr, hi, ne_eq, not_true_eq_false, Bool.not_true, Bool.not_false,
          Bool.false_eq_true, if_false, if_true]
  · exact ⟨_, initializeMemory_of_not_fresh he codes inputs⟩

theorem Code.toCell_ofData (x : Int) : (Code.ofData x).toCell = .ok (.data x) := rfl

theorem Code.toCell_ofPair (o a : Int) : (Code.ofPair o a).toCell = MemCell.construct none (some (o, a)) := rfl

/-- The constructor accepts every pair of a launch whose pairs are in range. -/
theorem exists_toCell_of_launchable {codes : List Code} {inputs : List Int} (h : launchable codes inputs)
    (hp : ∀ o a, Code.ofPair o a ∈ codes → pairInRange o a) : ∀ c ∈ codes, ∃ cell, c.toCell = .ok cell := by
  intro c hc
  rcases h.1 c hc with ⟨x, rfl, -⟩ | ⟨o, a, rfl⟩
  · exact ⟨_, Code.toCell_ofData x⟩
  · exact ⟨_, MemCell.construct_of_pairInRange (hp o a hc)⟩

/-- Settles O5: every cell that the loader writes is in the domain, and the rest of the state is the reset state's. -/
theorem loadedMachineMeetsInvariant : Obligations.LoadedMachineMeetsInvariant := by
  unfold Obligations.LoadedMachineMeetsInvariant
  intro codes inputs e t h
  obtain ⟨-, -, hr, hi, hlen, m, hm, rfl⟩ := initializeMemory_next h
  have hreset : State.reset.Inv := resetMeetsInvariant
  exact { hreset with
    memCanonical := loadCells_wf codes 0 [] m (by omega) hm hreset.memCanonical
    memInDomain := loadCells_cellsOk hr hm hreset.memInDomain
    inqInDomain := hi }

/-- Settles O41: each pair's cell is written once, from address 0 on. -/
theorem initializeMemoryLoads : Obligations.InitializeMemoryLoads := by
  unfold Obligations.InitializeMemoryLoads
  intro codes inputs h hlen hp
  obtain ⟨m, hm⟩ := exists_loadCells_eq_ok (exists_toCell_of_launchable h hp) 0 []
  refine ⟨m, initializeMemory_of_loadCells_ok h hlen hm, fun i x hi => ?_, fun i o a hi => ?_, fun i hi => ?_⟩
  · have hcell := loadCells_cellAt hm hi
    rw [Nat.zero_add, Code.toCell_ofData] at hcell
    exact (Except.ok.inj hcell).symm
  · have hcell := loadCells_cellAt hm hi
    rw [Nat.zero_add, Code.toCell_ofPair,
      MemCell.construct_of_pairInRange (hp o a (List.mem_of_getElem? hi))] at hcell
    exact (Except.ok.inj hcell).symm
  · exact loadCells_cellAt_outside hm (.inr (by omega))

/-- Settles O42: the premises, the length and the constructor are judged in this order. -/
theorem initializeMemoryFailsOrRefuses : Obligations.InitializeMemoryFailsOrRefuses := by
  unfold Obligations.InitializeMemoryFailsOrRefuses
  refine ⟨fun _ _ => initializeMemory_of_long, fun codes inputs o a h hlen hmem hp => ?_,
    fun _ _ e h => initializeMemory_of_not_launchable h e,
    fun codes inputs _ h => ⟨_, initializeMemory_of_not_fresh h codes inputs⟩⟩
  have hrejected : ∀ cell, (Code.ofPair o a).toCell ≠ .ok cell := by
    intro cell
    rw [Code.toCell_ofPair, MemCell.construct_of_not_pairInRange hp]
    exact nofun
  obtain ⟨k, hk⟩ := exists_loadCells_eq_error hmem hrejected 0 []
  exact initializeMemory_of_loadCells_error h hlen hk

theorem Engine.ne_fresh_of_loaded {e : Engine} (h : e.loaded = true) : e ≠ Engine.fresh := by
  rintro rfl
  cases h

theorem Engine.ne_fresh_of_halted {e : Engine} (h : e.state.halted = true) : e ≠ Engine.fresh := by
  rintro rfl
  cases h

/-- The first step of a machine that was never loaded fetches `D(0)` and halts it, so a run of it never comes back to
the reset state. -/
theorem stepMany_reset_keeps_halted {n : Nat} (hn : 0 < n) :
    keeps (fun s => s.halted = true) (stepMany n State.reset) := by
  cases n with
  | zero => exact absurd hn (Nat.lt_irrefl 0)
  | succ n =>
    have hfetch : fetches State.reset (.data 0) := ⟨rfl, Nat.zero_lt_succ _, rfl⟩
    obtain ⟨-, hdata⟩ := dataCellNeverExecutes
    obtain ⟨l, hstep, hl⟩ := hdata State.reset 0 hfetch
    rw [stepMany, stepOnce, hstep]
    exact hl

/-- Settles O52: a loaded machine's flag stays up, and a cycle of a machine that was not loaded halts it. -/
theorem secondLoadIsRefused : Obligations.SecondLoadIsRefused := by
  unfold Obligations.SecondLoadIsRefused
  refine ⟨fun codes inputs e t h codes' inputs' s => ?_, fun codes inputs n hn => ?_⟩
  · obtain ⟨-, -, -, -, -, m, -, rfl⟩ := initializeMemory_next h
    exact initializeMemory_of_not_fresh (Engine.ne_fresh_of_loaded rfl) codes' inputs'
  · refine keeps_mono (fun s hs => ?_) (stepMany_reset_keeps_halted hn)
    exact initializeMemory_of_not_fresh (Engine.ne_fresh_of_halted hs) codes inputs

end Sys2Proof.Machine
end

section
/-! PROOFS. Names, literals and marks (42 R141, R165 to R168): the table, the digits, and what a swallowed failure
leaves. -/

open Sys2Proof.Claims

namespace Sys2Proof.Machine

/-- A name has an entry exactly if it is a key of the table. -/
theorem exists_lookup_mnemonicTable_iff (t : Token) :
    (∃ n, mnemonicTable.lookup t = some n) ↔ (mnemonicTable.any fun e => e.1 == t) = true := by
  simp only [← Option.isSome_iff_exists, List.lookup_isSome_iff, List.any_eq_true, beq_iff_eq,
    @eq_comm _ t]

/-- The recognised names are `DAT` and the table's keys (42 R141). -/
theorem isMnemonic_iff_mem (t : Token) : isMnemonic t = true ↔ t ∈ datToken :: mnemonicTable.map Prod.fst := by
  simp only [isMnemonic, Bool.or_eq_true, beq_iff_eq, List.any_eq_true, List.mem_cons, List.mem_map]

theorem isMnemonic_iff (t : Token) : isMnemonic t = true ↔ t = datToken ∨ ∃ n, mnemonicTable.lookup t = some n := by
  rw [exists_lookup_mnemonicTable_iff, isMnemonic, Bool.or_eq_true, beq_iff_eq]

theorem ne_datToken_of_lookup {t : Token} {n : Nat} (h : mnemonicTable.lookup t = some n) : t ≠ datToken := by
  rintro rfl
  rw [lookup_datToken] at h
  cases h

/-- Settles O53: the eleven names are `DAT` and the table's ten keys, and `DAT` is none of them. -/
theorem recognisedMnemonics : Obligations.RecognisedMnemonics := by
  unfold Obligations.RecognisedMnemonics
  refine ⟨fun t => ?_, fun t => ⟨fun ⟨n, h⟩ => ?_, fun ⟨hm, hdat⟩ => ?_⟩⟩
  · exact (isMnemonic_iff_mem t).trans (List.Perm.mem_iff (by decide))
  · exact ⟨(isMnemonic_iff t).mpr (.inr ⟨n, h⟩), ne_datToken_of_lookup h⟩
  · exact ((isMnemonic_iff t).mp hm).resolve_left hdat

theorem encodeTokens_singleton_of_lookup {m : Token} {code : Nat} (h : mnemonicTable.lookup m = some code) :
    encodeTokens [.word m] = .ok (Code.ofPair ((code / 100 : Nat) : Int) ((code % 100 : Nat) : Int)) := by
  simp only [encodeTokens, lookupMnemonic, h]

/-- Settles O55: the encoding looks at the table's number and the operand's value alone. -/
theorem tableEntriesEncodeLiterally : Obligations.TableEntriesEncodeLiterally := by
  unfold Obligations.TableEntriesEncodeLiterally
  exact ⟨fun _ _ => encodeTokens_singleton_of_lookup, fun _ _ _ _ => encodeTokens_of_lookup⟩

theorem lookupMnemonic_of_noEntry {m : Operand} (h : noEntry m) : lookupMnemonic m = .error .mnemonicNotFound := by
  rcases h with ⟨a, rfl⟩ | ⟨t, rfl, ht⟩
  · rfl
  · simp only [lookupMnemonic, ht]

theorem encodeTokens_singleton_of_noEntry {m : Operand} (h : noEntry m) :
    encodeTokens [m] = .ok ⟨.degraded, .unspecified⟩ := by
  simp only [encodeTokens, lookupMnemonic_of_noEntry h]

theorem encodeTokens_pair_of_noEntry {m : Operand} (h : noEntry m) (hdat : m ≠ .word datToken) (x : Operand) :
    encodeTokens [m, x] = .ok ⟨.degraded, encodeOperand x⟩ := by
  simp only [encodeTokens, if_neg hdat, lookupMnemonic_of_noEntry h]

theorem encodeTokens_pair_of_lookup {m : Token} {code : Nat} (h : mnemonicTable.lookup m = some code) (x : Operand) :
    encodeTokens [.word m, x] = .ok ⟨.value code, encodeOperand x⟩ := by
  have hdat : Operand.word m ≠ .word datToken := fun heq => ne_datToken_of_lookup h (Operand.word.inj heq)
  simp only [encodeTokens, if_neg hdat, lookupMnemonic, h]

theorem encodeOperand_of_badOperand {x : Operand} (h : badOperand x) : encodeOperand x = .degraded := by
  obtain ⟨t, rfl, ht⟩ := h
  simp only [encodeOperand, operandValue, ht]

theorem Code.isDegraded_of_carriesMark {c : Code} (h : carriesMark c) : c.isDegraded = true := by
  obtain ⟨op, arg⟩ := c
  rcases h with rfl | rfl | rfl
  · rfl
  · cases op <;> rfl
  · cases op <;> rfl

/-- Settles O51: each component follows from its own lookup, and the loader refuses a mark in either. -/
theorem swallowedFailuresLeaveMarks : Obligations.SwallowedFailuresLeaveMarks := by
  unfold Obligations.SwallowedFailuresLeaveMarks
  refine ⟨fun m => encodeTokens_singleton_of_noEntry, fun m x n hm hdat hx => ?_, fun m x hm hdat hx => ?_,
    fun t n x ht hx => ?_, fun x hx => ?_, fun codes inputs c hc hmark => ?_⟩
  · rw [encodeTokens_pair_of_noEntry hm hdat, encodeOperand_of_operandIs hx]
  · rw [encodeTokens_pair_of_noEntry hm hdat, encodeOperand_of_badOperand hx]
  · rw [encodeTokens_pair_of_lookup ht, encodeOperand_of_badOperand hx]
  · exact (encodeTokens_dat x).trans (by rw [encodeOperand_of_badOperand hx])
  · have hany : codes.any Code.isDegraded = true :=
      List.any_eq_true.mpr ⟨c, hc, Code.isDegraded_of_carriesMark hmark⟩
    exact initializeMemory_of_degraded hany inputs

/-- Membership in a list of characters with consecutive code points is a range test on the code point. -/
theorem mem_iff_of_map_toNat_eq_range' {l : List Char} {first n : Nat}
    (h : l.map Char.toNat = List.range' first n) (c : Char) :
    c ∈ l ↔ first ≤ c.toNat ∧ c.toNat < first + n := by
  rw [← List.mem_map_of_injective (fun _ _ => Char.toNat_inj.mp), h, List.mem_range'_1]

theorem digitValue_eq_none_iff (c : Char) : digitValue c = none ↔ c ∉ "0123456789".toList := by
  rw [mem_iff_of_map_toNat_eq_range' (first := 0x30) (n := 10) (by decide)]
  simp only [digitValue, ite_eq_right_iff, reduceCtorEq, imp_false]
  omega

theorem digitValue_digitChar {d : Nat} (h : d < 10) : digitValue (Nat.digitChar d) = some d := by
  decide +revert

theorem literalFrom_cons_of_digit {c : Char} {d : Nat} (h : digitValue c = some d) (acc : Nat) (t : Token) :
    literalFrom acc (c :: t) = literalFrom (acc * 10 + d) t := by
  simp only [literalFrom, h]

theorem literalFrom_eq_none_iff (acc : Nat) (t : Token) :
    literalFrom acc t = none ↔ ∃ c ∈ t, digitValue c = none := by
  induction t generalizing acc with
  | nil => simp [literalFrom]
  | cons c t ih => cases h : digitValue c <;> simp [literalFrom, h, ih]

/-- One more digit multiplies the value by ten and adds (42 R165). -/
theorem literalFrom_append_digit {t : Token} {acc n d : Nat} {c : Char} (h : literalFrom acc t = some n)
    (hc : digitValue c = some d) : literalFrom acc (t ++ [c]) = some (n * 10 + d) := by
  induction t generalizing acc with
  | nil =>
    cases h
    rw [List.nil_append, literalFrom_cons_of_digit hc, literalFrom]
  | cons e t ih =>
    cases he : digitValue e with
    | none => simp [literalFrom, he] at h
    | some k =>
      rw [literalFrom_cons_of_digit he] at h
      rw [List.cons_append, literalFrom_cons_of_digit he, ih h]

theorem literalValue_of_ne_nil {t : Token} (h : t ≠ []) : literalValue t = literalFrom 0 t := by
  rw [literalValue, if_neg (by simpa using h)]

theorem literalFrom_of_literalValue {t : Token} {n : Nat} (h : literalValue t = some n) : literalFrom 0 t = some n := by
  unfold literalValue at h
  split at h
  · cases h
  · exact h

theorem literalValue_eq_none_iff (t : Token) : literalValue t = none ↔ t = [] ∨ ∃ c ∈ t, c ∉ "0123456789".toList := by
  by_cases ht : t = []
  · simp [ht, literalValue]
  · simp only [literalValue_of_ne_nil ht, literalFrom_eq_none_iff, digitValue_eq_none_iff, ht, false_or]

/-- Settles O54: the value is built from the left, a digit at a time. -/
theorem literalsAreDecimal : Obligations.LiteralsAreDecimal := by
  unfold Obligations.LiteralsAreDecimal
  refine ⟨literalValue_eq_none_iff, fun d hd => ?_, fun t n d hd h => ?_, fun t n h => ?_⟩
  · rw [literalValue_of_ne_nil (List.cons_ne_nil _ _), literalFrom_cons_of_digit (digitValue_digitChar hd), literalFrom,
      Nat.zero_mul, Nat.zero_add]
  · rw [literalValue_of_ne_nil (List.append_ne_nil_of_right_ne_nil t (List.cons_ne_nil _ _))]
    exact literalFrom_append_digit (literalFrom_of_literalValue h) (digitValue_digitChar hd)
  · rw [literalValue_of_ne_nil (List.cons_ne_nil _ _), literalFrom_cons_of_digit (d := 0) rfl]
    exact literalFrom_of_literalValue h

end Sys2Proof.Machine
end

section
/-! PROOFS. Whole assemblies (42 R140, R152, R161, R171): the sources that are refused, the line that ends an assembly,
and the well-formed source, from its text to the loaded memory. -/

open Sys2Proof.Claims

namespace Sys2Proof.Machine

theorem Labels.distinct_iff (labels : Labels) : labels.distinct = true ↔ (labels.map Prod.fst).Nodup := by
  induction labels with
  | nil => simp [Labels.distinct]
  | cons e rest ih =>
    obtain ⟨l, k⟩ := e
    have hany : (rest.any fun e => e.1 == l) = true ↔ l ∈ rest.map Prod.fst := by simp
    simp only [Labels.distinct, Bool.and_eq_true, Bool.not_eq_true', ← Bool.not_eq_true, hany, ih, List.map_cons,
      List.nodup_cons]

theorem assembleChars_of_not_admitted {text : List Char} (h : text.all isAdmitted = false) :
    assembleChars text = .refused .characterNotAdmitted := by
  simp only [assembleChars, h, Bool.not_false, if_true]

theorem assembleChars_of_not_distinct {text : List Char} (h : text.all isAdmitted = true)
    (hl : (extractLabels (normalise text)).1.distinct = false) :
    assembleChars text = .refused .labelDefinedTwice := by
  simp only [assembleChars, h, hl, Bool.not_true, Bool.not_false, Bool.false_eq_true, if_false, if_true]

theorem assembleChars_of_encodeAll_ok {text : List Char} {codes : List Code} (h : text.all isAdmitted = true)
    (hl : (extractLabels (normalise text)).1.distinct = true) (hc : encodeAll (substituted text) = .ok codes) :
    assembleChars text = .next codes := by
  simp only [assembleChars, h, hl, hc, Bool.not_true, Bool.false_eq_true, if_false]

theorem assembleChars_of_encodeAll_error {text : List Char} {e : AssemblyFault} (h : text.all isAdmitted = true)
    (hl : (extractLabels (normalise text)).1.distinct = true) (hc : encodeAll (substituted text) = .error e) :
    assembleChars text = .fault e := by
  simp only [assembleChars, h, hl, hc, Bool.not_true, Bool.false_eq_true, if_false]

/-- An admitted source without a repeated label has its meaning (42 R140). -/
theorem assembleChars_ne_refused {text : List Char} (h : text.all isAdmitted = true)
    (hl : (extractLabels (normalise text)).1.distinct = true) (r : AssemblyRefusal) :
    assembleChars text ≠ .refused r := by
  cases hc : encodeAll (substituted text) with
  | ok codes => simp [assembleChars_of_encodeAll_ok h hl hc]
  | error e => simp [assembleChars_of_encodeAll_error h hl hc]

/-- Of ASCII only the four information separators are outside the admitted subset. -/
theorem isAdmitted_eq_false_iff_of_ascii {c : Char} (h : c.toNat < 0x80) :
    isAdmitted c = false ↔ 0x1C ≤ c.toNat ∧ c.toNat ≤ 0x1F := by
  have hletter : isNonAsciiLetter c = false := by
    have hlow : Nat.ble 0x80 c.toNat = false := by
      rw [Bool.eq_false_iff, ne_eq, Nat.ble_eq]
      omega
    rw [isNonAsciiLetter, hlow, Bool.false_and]
  simp only [isAdmitted, hletter, isOtherSpace, inRanges, otherSpaceRanges, List.any_cons, List.any_nil,
    Bool.not_false, Bool.true_and, Bool.not_eq_false', Bool.or_eq_true, Bool.and_eq_true, Nat.ble_eq,
    Bool.false_eq_true, or_false]
  omega

/-- Settles O49: the characters come before the labels, and the lists of code points are looked up. -/
theorem sourcesOutsideSubsetRefused : Obligations.SourcesOutsideSubsetRefused := by
  unfold Obligations.SourcesOutsideSubsetRefused
  refine ⟨fun text ⟨c, hc, hbad⟩ => ?_, fun text h hdup => ?_, fun text h hnodup r => ?_,
    fun c => isAdmitted_eq_false_iff_of_ascii, by decide, by decide⟩
  · exact assembleChars_of_not_admitted (List.all_eq_false.mpr ⟨c, hc, by simp [hbad]⟩)
  · rw [← Labels.distinct_iff, Bool.not_eq_true] at hdup
    exact assembleChars_of_not_distinct (List.all_eq_true.mpr h) hdup
  · exact assembleChars_ne_refused (List.all_eq_true.mpr h) ((Labels.distinct_iff _).mpr hnodup) r

theorem length_substituteLast (labels : Labels) (toks : List Token) :
    (substituteLast labels toks).length = toks.length := by
  induction toks with
  | nil => rfl
  | cons t rest ih =>
    cases rest with
    | nil => rfl
    | cons u rest => simpa [substituteLast] using ih

/-- A line of one to three tokens leaves an instruction of one or two (42 R147 to R149). -/
theorem length_splitLabel_of_le {toks : List Token} (hne : toks ≠ []) (h : toks.length ≤ 3) :
    (splitLabel toks).2.length = 1 ∨ (splitLabel toks).2.length = 2 := by
  match toks, hne, h with
  | [_], _, _ => exact .inl rfl
  | [l, m], _, _ =>
    cases hl : isMnemonic l with
    | true => exact .inr (by rw [splitLabel_two_of_mnemonic hl]; rfl)
    | false => exact .inl (by rw [splitLabel_two_of_not_mnemonic hl]; rfl)
  | [_, _, _], _, _ => exact .inr rfl

theorem encodeTokens_of_long {toks : List Operand} (h : 3 ≤ toks.length) :
    encodeTokens toks = .error .invalidInstructionFormat := by
  match toks, h with
  | _ :: _ :: _ :: _, _ => rfl

/-- The failures of a line of one or two tokens are swallowed (42 R161, R167). -/
theorem exists_encodeTokens_eq_ok {toks : List Operand} (h : toks.length = 1 ∨ toks.length = 2) :
    ∃ c, encodeTokens toks = .ok c := by
  match toks, h with
  | [m], _ => cases hm : lookupMnemonic m <;> simp [encodeTokens, hm]
  | [m, x], _ => by_cases hdat : m = .word datToken <;> cases hm : lookupMnemonic m <;> simp [encodeTokens, hdat, hm]

/-- An assembly's pairs are the encodings of its instructions, in order (42 R170). -/
theorem map_encodeTokens_of_encodeAll {lines : List (List Operand)} {codes : List Code}
    (h : encodeAll lines = .ok codes) : lines.map encodeTokens = codes.map .ok := by
  induction lines generalizing codes with
  | nil =>
    cases h
    rfl
  | cons toks rest ih =>
    cases hc : encodeTokens toks with
    | error e => simp [encodeAll, hc] at h
    | ok c =>
      cases hcs : encodeAll rest with
      | error e => simp [encodeAll, hc, hcs] at h
      | ok cs =>
        simp only [encodeAll, hc, hcs, Except.ok.injEq] at h
        rw [List.map_cons, hc, ih hcs, ← h, List.map_cons]

theorem exists_encodeAll_eq_ok {lines : List (List Operand)} (h : ∀ toks ∈ lines, ∃ c, encodeTokens toks = .ok c) :
    ∃ codes, encodeAll lines = .ok codes := by
  induction lines with
  | nil => exact ⟨[], rfl⟩
  | cons toks rest ih =>
    obtain ⟨c, hc⟩ := h toks List.mem_cons_self
    obtain ⟨codes, hcodes⟩ := ih fun toks' hmem => h toks' (List.mem_cons_of_mem toks hmem)
    exact ⟨c :: codes, by simp only [encodeAll, hc, hcodes]⟩

/-- One line that cannot be encoded ends the assembly (42 R161). -/
theorem encodeAll_of_mem_error {lines : List (List Operand)} {toks : List Operand} (hmem : toks ∈ lines)
    (h : encodeTokens toks = .error .invalidInstructionFormat) :
    encodeAll lines = .error .invalidInstructionFormat := by
  cases hall : encodeAll lines with
  | error e => rfl
  | ok codes =>
    have himage : encodeTokens toks ∈ codes.map .ok :=
      map_encodeTokens_of_encodeAll hall ▸ List.mem_map_of_mem hmem
    simp [h] at himage

theorem length_of_encodeAll {lines : List (List Operand)} {codes : List Code} (h : encodeAll lines = .ok codes) :
    codes.length = lines.length := by
  simpa using (congrArg List.length (map_encodeTokens_of_encodeAll h)).symm

theorem getElem?_of_encodeAll {lines : List (List Operand)} {codes : List Code} (h : encodeAll lines = .ok codes)
    {k : Nat} {toks : List Operand} (hk : lines[k]? = some toks) :
    ∃ c, codes[k]? = some c ∧ encodeTokens toks = .ok c := by
  have himage : (codes.map Except.ok)[k]? = some (encodeTokens toks) := by
    rw [← map_encodeTokens_of_encodeAll h, List.getElem?_map, hk, Option.map_some]
  rw [List.getElem?_map, Option.map_eq_some_iff] at himage
  obtain ⟨c, hc, hok⟩ := himage
  exact ⟨c, hc, hok.symm⟩

theorem mem_of_encodeAll {lines : List (List Operand)} {codes : List Code} (h : encodeAll lines = .ok codes)
    {c : Code} (hc : c ∈ codes) : ∃ toks ∈ lines, encodeTokens toks = .ok c := by
  have himage : Except.ok c ∈ lines.map encodeTokens := by
    rw [map_encodeTokens_of_encodeAll h]
    exact List.mem_map_of_mem hc
  exact List.mem_map.mp himage

theorem mem_substituted_iff {text : List Char} {x : List Operand} :
    x ∈ substituted text ↔
      ∃ toks ∈ normalise text, substituteLast (extractLabels (normalise text)).1 (splitLabel toks).2 = x := by
  simp [substituted, extractLabels]

theorem length_substituted (text : List Char) : (substituted text).length = (normalise text).length := by
  simp [substituted, extractLabels]

/-- A line's token list is never empty (42 R145). -/
theorem ne_nil_of_mem_normalise {text : List Char} {toks : List Token} (h : toks ∈ normalise text) : toks ≠ [] := by
  obtain ⟨-, hne⟩ := List.mem_filter.mp h
  simpa using hne

/-- A line of four or more tokens is no shorter after both passes, and cannot be encoded (42 R150, R161). -/
theorem encodeAll_substituted_of_long {text : List Char} {toks : List Token} (hmem : toks ∈ normalise text)
    (hlen : 4 ≤ toks.length) : encodeAll (substituted text) = .error .invalidInstructionFormat := by
  refine encodeAll_of_mem_error (mem_substituted_iff.mpr ⟨toks, hmem, rfl⟩) (encodeTokens_of_long ?_)
  rw [length_substituteLast, splitLabel_of_other_length (by omega) (by omega)]
  exact Nat.le_of_succ_le hlen

theorem exists_encodeAll_substituted {text : List Char} (h : ∀ toks ∈ normalise text, toks.length ≤ 3) :
    ∃ codes, encodeAll (substituted text) = .ok codes := by
  refine exists_encodeAll_eq_ok fun x hx => exists_encodeTokens_eq_ok ?_
  obtain ⟨toks, hmem, rfl⟩ := mem_substituted_iff.mp hx
  rw [length_substituteLast]
  exact length_splitLabel_of_le (ne_nil_of_mem_normalise hmem) (h toks hmem)

/-- Settles O46: the token counts decide, since every other failure is swallowed. -/
theorem assemblyEndsOnlyOnLongLines : Obligations.AssemblyEndsOnlyOnLongLines := by
  unfold Obligations.AssemblyEndsOnlyOnLongLines
  refine fun text h hl => ⟨fun ⟨toks, hmem, hlen⟩ => ?_, fun hshort => ?_⟩
  · exact assembleChars_of_encodeAll_error h hl (encodeAll_substituted_of_long hmem hlen)
  · obtain ⟨codes, hcodes⟩ := exists_encodeAll_substituted hshort
    exact ⟨codes, assembleChars_of_encodeAll_ok h hl hcodes,
      (length_of_encodeAll hcodes).trans (length_substituted text), fun _ _ => getElem?_of_encodeAll hcodes⟩

/-- A pair whose cell is in the domain and holds no illegal opcode. -/
def Code.legal (c : Code) : Prop :=
  (∃ n : Nat, n ≤ 999 ∧ c = Code.ofData n) ∨
    ∃ o a : Nat, o ≤ 9 ∧ a ≤ 99 ∧ o ≠ 4 ∧ (o = 9 → a = 1 ∨ a = 2) ∧ c = Code.ofPair o a

/-- The three mnemonics of a one-token line stand for HLT, INP and OUT. -/
theorem encodeTokens_of_isControlMnemonic {m : Token} (h : isControlMnemonic m = true) :
    ∃ c, encodeTokens [.word m] = .ok c ∧ c.legal := by
  simp only [isControlMnemonic, Bool.or_eq_true, beq_iff_eq] at h
  rcases h with (rfl | rfl) | rfl
  · exact ⟨Code.ofPair 9 1, rfl, .inr ⟨9, 1, by decide, by decide, by decide, by decide, rfl⟩⟩
  · exact ⟨Code.ofPair 9 2, rfl, .inr ⟨9, 2, by decide, by decide, by decide, by decide, rfl⟩⟩
  · exact ⟨Code.ofPair 0 0, rfl, .inr ⟨0, 0, by decide, by decide, by decide, by decide, rfl⟩⟩

/-- The seven mnemonics with a memory operand have their opcode as number (42 R163). -/
theorem lookup_of_isActionMnemonic {m : Token} (h : isActionMnemonic m = true) :
    ∃ o, mnemonicTable.lookup m = some o ∧ o ≤ 8 ∧ o ≠ 4 := by
  simp only [isActionMnemonic, Bool.or_eq_true, beq_iff_eq] at h
  rcases h with (((((rfl | rfl) | rfl) | rfl) | rfl) | rfl) | rfl <;> exact ⟨_, rfl, by decide, by decide⟩

theorem operandIs_of_operandValue {x : Operand} {n : Nat} (h : operandValue x = .ok n) : operandIs x n := by
  cases x with
  | label a =>
    cases h
    exact .inl rfl
  | word t =>
    cases ht : literalValue t with
    | none => simp [operandValue, ht] at h
    | some k =>
      simp only [operandValue, ht, Except.ok.injEq] at h
      exact .inr ⟨t, rfl, h ▸ ht⟩

/-- A well-formed instruction is encoded as a legal pair (42 R171). -/
theorem encodeTokens_of_wellFormedTokens {toks : List Operand} (h : wellFormedTokens toks = true) :
    ∃ c, encodeTokens toks = .ok c ∧ c.legal := by
  match toks, h with
  | [.word m], h => exact encodeTokens_of_isControlMnemonic h
  | [.word m, x], h =>
    cases hx : operandValue x with
    | error k => simp [wellFormedTokens, hx] at h
    | ok n =>
      have hop : operandIs x n := operandIs_of_operandValue hx
      simp only [wellFormedTokens, hx, Bool.or_eq_true, Bool.and_eq_true, decide_eq_true_eq, beq_iff_eq] at h
      rcases h with ⟨hm, hn⟩ | ⟨rfl, hn⟩
      · obtain ⟨o, hlookup, ho, ho4⟩ := lookup_of_isActionMnemonic hm
        exact ⟨Code.ofPair o n, encodeTokens_of_lookup hlookup hop, .inr ⟨o, n, by omega, hn, ho4, by omega, rfl⟩⟩
      · exact ⟨Code.ofData n, encodeTokens_dat_of_operandIs hop, .inl ⟨n, hn, rfl⟩⟩

/-- An assembly of well-formed instructions consists of legal pairs. -/
theorem exists_encodeAll_legal {lines : List (List Operand)} (h : ∀ toks ∈ lines, wellFormedTokens toks = true) :
    ∃ codes, encodeAll lines = .ok codes ∧ ∀ c ∈ codes, c.legal := by
  have hencode : ∀ toks ∈ lines, ∃ c, encodeTokens toks = .ok c ∧ c.legal :=
    fun toks hmem => encodeTokens_of_wellFormedTokens (h toks hmem)
  obtain ⟨codes, hcodes⟩ := exists_encodeAll_eq_ok fun toks hmem => (hencode toks hmem).imp fun _ => And.left
  refine ⟨codes, hcodes, fun c hc => ?_⟩
  obtain ⟨toks, hmem, htoks⟩ := mem_of_encodeAll hcodes hc
  obtain ⟨d, hd, hlegal⟩ := hencode toks hmem
  exact Except.ok.inj (htoks.symm.trans hd) ▸ hlegal

/-- A list of legal pairs and an input of three-digit values meet the launch premises (49 R274). -/
theorem launchable_of_legal {codes : List Code} {inputs : List Int} (h : ∀ c ∈ codes, c.legal)
    (hi : ∀ v ∈ inputs, InThreeDigits v) : launchable codes inputs := by
  refine ⟨fun c hc => ?_, hi⟩
  rcases h c hc with ⟨n, hn, rfl⟩ | ⟨o, a, -, -, -, -, rfl⟩
  · exact .inl ⟨n, rfl, by omega⟩
  · exact .inr ⟨o, a, rfl⟩

theorem pairInRange_of_legal {o a : Int} (h : (Code.ofPair o a).legal) : pairInRange o a := by
  rcases h with ⟨n, -, heq⟩ | ⟨o', a', ho, ha, -, -, heq⟩
  · cases heq
  · cases heq
    unfold pairInRange
    omega

/-- The instruction cell of a legal pair decodes to one of the ten instructions (30 R84). -/
theorem decodeCell_of_toCell_legal {c : Code} {o a : Nat} (h : c.legal) (hc : c.toCell = .ok (.instr o a)) :
    ∃ i, decodeCell (.instr o a) = .ok i ∧ (∀ x, i ≠ .illegalOp4 x) ∧ ∀ x, i ≠ .illegalOp9 x := by
  rcases h with ⟨n, -, rfl⟩ | ⟨o', a', ho, ha, ho4, ho9, rfl⟩
  · cases hc
  · rw [Code.toCell_ofPair, MemCell.construct_of_pairInRange (by unfold pairInRange; omega)] at hc
    cases hc
    obtain ⟨i, hi⟩ := decodeCell_isOk ((MemCell.wf_instr_iff o' a').mpr ⟨ho, ha⟩)
    refine ⟨i, hi, ?_, ?_⟩
    · rintro x rfl
      exact ho4 ((decodeCell_eq_illegalOp4_iff o' a' x).mp hi).1
    · rintro x rfl
      obtain ⟨h9, -, h1, h2⟩ := (decodeCell_eq_illegalOp9_iff o' a' x).mp hi
      exact (ho9 h9).elim h1 h2

/-- An instruction cell of a loaded memory was made from one of the pairs (49 R273, 10 R35). -/
theorem exists_code_of_loadCells_instr {codes : List Code} {m : Memory} (h : loadCells 0 codes [] = .ok m)
    {a o b : Nat} (hc : Memory.cellAt m a = .instr o b) : ∃ c ∈ codes, c.toCell = .ok (.instr o b) := by
  rcases Nat.lt_or_ge a codes.length with ha | ha
  · have hcell := loadCells_cellAt h (List.getElem?_eq_getElem ha)
    rw [Nat.zero_add, hc] at hcell
    exact ⟨codes[a], List.getElem_mem ha, hcell⟩
  · have hinit := loadCells_cellAt_outside h (.inr ((Nat.zero_add _).trans_le ha))
    cases hc.symm.trans hinit

/-- Settles O47: a well-formed source is encoded as legal pairs, which the loader accepts and turns into cells. -/
theorem wellFormedSourceLoads : Obligations.WellFormedSourceLoads := by
  unfold Obligations.WellFormedSourceLoads
  intro text inputs h hi
  simp only [wellFormedSource, Bool.and_eq_true, decide_eq_true_eq] at h
  obtain ⟨⟨⟨⟨hadmitted, hlines⟩, hdistinct⟩, -⟩, hwf⟩ := h
  obtain ⟨codes, hcodes, hlegal⟩ := exists_encodeAll_legal (List.all_eq_true.mp hwf)
  have hlen : codes.length = (normalise text).length := (length_of_encodeAll hcodes).trans (length_substituted text)
  have hlaunch : launchable codes inputs := launchable_of_legal hlegal hi
  obtain ⟨m, hm⟩ := exists_loadCells_eq_ok
    (exists_toCell_of_launchable hlaunch fun o a hmem => pairInRange_of_legal (hlegal _ hmem)) 0 []
  refine ⟨codes, loadedEngine m inputs, assembleChars_of_encodeAll_ok hadmitted hdistinct hcodes, hlen,
    initializeMemory_of_loadCells_ok hlaunch (hlen.trans_le hlines) hm, fun a o b _ hcell => ?_⟩
  obtain ⟨c, hc, hcell⟩ := exists_code_of_loadCells_instr hm hcell
  exact decodeCell_of_toCell_legal (hlegal c hc) hcell

end Sys2Proof.Machine
end

section
/-! PROOFS. Pass 0 of the assembler (42 R144, R145): lines, comments, runs of characters and uppercasing. -/

open Sys2Proof.Claims

namespace Sys2Proof.Machine

/-- A text without a line feed is one line (42 R144 (a)). -/
theorem splitLines_of_no_newline {line : List Char} (h : '\n' ∉ line) : splitLines line = [line] := by
  induction line with
  | nil => rfl
  | cons c line ih =>
    rw [List.mem_cons, not_or] at h
    obtain ⟨hc, hline⟩ := h
    simp only [splitLines, if_neg (Ne.symm hc), ih hline]

theorem splitLines_append_newline {line : List Char} (h : '\n' ∉ line) (rest : List Char) :
    splitLines (line ++ '\n' :: rest) = line :: splitLines rest := by
  induction line with
  | nil => simp only [List.nil_append, splitLines, if_true]
  | cons c line ih =>
    rw [List.mem_cons, not_or] at h
    obtain ⟨hc, hline⟩ := h
    simp only [List.cons_append, splitLines, if_neg (Ne.symm hc), ih hline]

/-- Lines put together with line feeds between them are separated again (42 R144 (a)). -/
theorem splitLines_intercalate {lines : List (List Char)} (hne : lines ≠ []) (h : ∀ l ∈ lines, '\n' ∉ l) :
    splitLines (['\n'].intercalate lines) = lines := by
  induction lines with
  | nil => exact absurd rfl hne
  | cons l rest ih =>
    have hl : '\n' ∉ l := h l List.mem_cons_self
    cases rest with
    | nil => simpa using splitLines_of_no_newline hl
    | cons l' rest =>
      rw [List.intercalate_cons_cons, List.append_assoc, List.singleton_append, splitLines_append_newline hl,
        ih (List.cons_ne_nil _ _) fun k hk => h k (List.mem_cons_of_mem l hk)]

theorem no_newline_of_mem_splitLines {text line : List Char} (h : line ∈ splitLines text) : '\n' ∉ line := by
  induction text generalizing line with
  | nil => simp_all [splitLines]
  | cons c rest ih =>
    by_cases hc : c = '\n'
    · simp only [splitLines, if_pos hc, List.mem_cons] at h
      rcases h with rfl | h
      · exact List.not_mem_nil
      · exact ih h
    · cases hrest : splitLines rest with
      | nil =>
        simp only [splitLines, if_neg hc, hrest, List.mem_singleton] at h
        simpa [h] using Ne.symm hc
      | cons l lines =>
        simp only [splitLines, if_neg hc, hrest, List.mem_cons] at h
        rcases h with rfl | h
        · rw [List.mem_cons, not_or]
          exact ⟨Ne.symm hc, ih (hrest ▸ List.mem_cons_self)⟩
        · exact ih (hrest ▸ List.mem_cons_of_mem l h)

/-- A character that starts no comment is kept (42 R144 (b)). -/
theorem stripComment_cons {c : Char} {rest : List Char} (h : ¬ ['/', '/'] <+: c :: rest) :
    stripComment (c :: rest) = c :: stripComment rest := by
  rw [stripComment]
  rintro tail rfl rfl
  exact h (List.prefix_append ['/', '/'] tail)

theorem stripComment_of_no_comment {line : List Char} (h : ¬ ['/', '/'] <:+: line) : stripComment line = line := by
  induction line with
  | nil => rfl
  | cons c rest ih =>
    rw [stripComment_cons fun hp => h hp.isInfix, ih fun hi => h (hi.trans (List.suffix_cons c rest).isInfix)]

/-- A comment begins at its first character alone: what stands before it is kept (42 R144 (b)). -/
theorem stripComment_append {line : List Char} {c : Char} (h : ¬ ['/', '/'] <:+: line ++ [c]) (rest : List Char) :
    stripComment (line ++ c :: rest) = line ++ stripComment (c :: rest) := by
  induction line with
  | nil => rfl
  | cons d line ih =>
    have hstart : ¬ ['/', '/'] <+: d :: (line ++ c :: rest) := by
      intro hp
      have hwhole : d :: line ++ [c] <+: d :: (line ++ c :: rest) := ⟨rest, by simp⟩
      exact h (List.prefix_of_prefix_length_le hp hwhole (by simp)).isInfix
    have hline : ¬ ['/', '/'] <:+: line ++ [c] := fun hi => h (hi.trans (List.suffix_cons d _).isInfix)
    rw [List.cons_append, stripComment_cons hstart, ih hline, List.cons_append]

theorem mem_of_mem_stripComment {line : List Char} {c : Char} (h : c ∈ stripComment line) : c ∈ line := by
  induction line using stripComment.induct with
  | case1 => exact h
  | case2 rest => simp [stripComment] at h
  | case3 d rest hd ih =>
    rw [stripComment] at h
    · rcases List.mem_cons.mp h with rfl | h
      · exact List.mem_cons_self
      · exact List.mem_cons_of_mem d (ih h)
    · exact hd

theorem isBlank_iff (c : Char) : isBlank c = true ↔ c ∈ [' ', '\t', '\r', '\x0B', '\x0C'] := by
  simp only [isBlank, Bool.or_eq_true, beq_iff_eq, List.mem_cons, List.not_mem_nil, or_false, or_assoc,
    ← Char.toNat_inj]
  rfl

theorem ne_slash_of_isBlank {b : Char} (h : isBlank b = true) : b ≠ '/' := by
  rintro rfl
  cases h

/-- Whitespace starts no comment. -/
theorem stripComment_cons_blank {b : Char} (h : isBlank b = true) (line : List Char) :
    stripComment (b :: line) = b :: stripComment line :=
  stripComment_cons fun hp => ne_slash_of_isBlank h (List.cons_prefix_cons.mp hp).1.symm

/-- No comment starts at the end of a run before whitespace. -/
theorem no_comment_append_blank {run : List Char} {b : Char} (h : ¬ ['/', '/'] <:+: run) (hb : isBlank b = true) :
    ¬ ['/', '/'] <:+: run ++ [b] := by
  rw [List.infix_concat_iff, not_or]
  refine ⟨fun hs => ne_slash_of_isBlank hb ?_, h⟩
  simpa using (hs.getLast (List.cons_ne_nil _ _)).symm

/-- Whitespace ends the current run, if there is one. -/
theorem tokensFrom_cons_blank {b : Char} (hb : isBlank b = true) (run rest : List Char) :
    tokensFrom run (b :: rest) = tokensFrom run [] ++ tokensFrom [] rest := by
  cases run <;> simp [tokensFrom, hb]

theorem tokensFrom_cons_of_not_blank {c : Char} (hc : isBlank c = false) (run rest : List Char) :
    tokensFrom run (c :: rest) = tokensFrom (c :: run) rest := by
  simp only [tokensFrom, hc, Bool.false_eq_true, if_false]

/-- Non-whitespace characters go to the current run. -/
theorem tokensFrom_append_of_not_blank {run : List Char} (h : ∀ c ∈ run, isBlank c = false) (acc rest : List Char) :
    tokensFrom acc (run ++ rest) = tokensFrom (run.reverse ++ acc) rest := by
  induction run generalizing acc with
  | nil => rfl
  | cons c run ih =>
    have hc : isBlank c = false := h c List.mem_cons_self
    rw [List.cons_append, tokensFrom_cons_of_not_blank hc, ih fun d hd => h d (List.mem_cons_of_mem c hd)]
    simp

theorem tokensFrom_run {run : List Char} (hne : run ≠ []) (h : ∀ c ∈ run, isBlank c = false) :
    tokensFrom [] run = [run] := by
  have happend := tokensFrom_append_of_not_blank h [] []
  simpa [tokensFrom, hne] using happend

theorem tokensFrom_run_blank {run : List Char} (hne : run ≠ []) (h : ∀ c ∈ run, isBlank c = false) {b : Char}
    (hb : isBlank b = true) (rest : List Char) : tokensFrom [] (run ++ b :: rest) = run :: tokensFrom [] rest := by
  rw [tokensFrom_append_of_not_blank h, tokensFrom_cons_blank hb]
  simp [tokensFrom, hne]

theorem forall_mem_tokensFrom_nil {P : Char → Prop} {run : List Char} (h : ∀ c ∈ run, P c) :
    ∀ t ∈ tokensFrom run [], t ≠ [] ∧ ∀ c ∈ t, P c := by
  intro t ht
  by_cases hrun : run = []
  · simp [tokensFrom, hrun] at ht
  · simp only [tokensFrom, List.isEmpty_iff, if_neg hrun, List.mem_singleton] at ht
    subst ht
    exact ⟨by simpa using hrun, fun c hc => h c (List.mem_reverse.mp hc)⟩

/-- Tokens are never empty, hold no whitespace, and hold only what the line and the current run hold. -/
theorem forall_mem_tokensFrom {P : Char → Prop} {run line : List Char} (hrun : ∀ c ∈ run, isBlank c = false ∧ P c)
    (hline : ∀ c ∈ line, P c) : ∀ t ∈ tokensFrom run line, t ≠ [] ∧ ∀ c ∈ t, isBlank c = false ∧ P c := by
  induction line generalizing run with
  | nil => exact forall_mem_tokensFrom_nil hrun
  | cons c rest ih =>
    obtain ⟨hc, hrest⟩ := List.forall_mem_cons.mp hline
    cases hb : isBlank c with
    | true =>
      rw [tokensFrom_cons_blank hb, List.forall_mem_append]
      exact ⟨forall_mem_tokensFrom_nil hrun, ih (List.forall_mem_nil _) hrest⟩
    | false =>
      rw [tokensFrom_cons_of_not_blank hb]
      exact ih (List.forall_mem_cons.mpr ⟨⟨hb, hc⟩, hrun⟩) hrest

theorem isBlank_eq_false_of_toNat {c : Char} (h : 0x20 < c.toNat) : isBlank c = false := by
  simp only [isBlank, Bool.or_eq_false_iff, beq_eq_false_iff_ne]
  omega

theorem upperChar_of_not_lowercase {c : Char} (h : ¬ (0x61 ≤ c.toNat ∧ c.toNat ≤ 0x7A)) : upperChar c = c :=
  if_neg h

theorem toNat_upperChar_of_lowercase {c : Char} (h : 0x61 ≤ c.toNat ∧ c.toNat ≤ 0x7A) :
    (upperChar c).toNat = c.toNat - 0x20 := by
  rw [upperChar, if_pos h, Char.toNat_ofNat, if_pos (.inl (by omega))]

/-- Uppercasing makes no whitespace and no line feed, and once is enough (42 R144 (d)). -/
theorem upperChar_keeps {c : Char} (hblank : isBlank c = false) (hline : c ≠ '\n') :
    isBlank (upperChar c) = false ∧ upperChar c ≠ '\n' ∧ upperChar (upperChar c) = upperChar c := by
  by_cases h : 0x61 ≤ c.toNat ∧ c.toNat ≤ 0x7A
  · have hupper := toNat_upperChar_of_lowercase h
    refine ⟨isBlank_eq_false_of_toNat (by omega), fun heq => ?_, upperChar_of_not_lowercase (by omega)⟩
    have hfeed : (upperChar c).toNat = 10 := congrArg Char.toNat heq
    omega
  · rw [upperChar_of_not_lowercase h]
    exact ⟨hblank, hline, upperChar_of_not_lowercase h⟩

theorem upperChar_of_not_mem_lowercase {c : Char} (h : c ∉ "abcdefghijklmnopqrstuvwxyz".toList) :
    upperChar c = c := by
  rw [mem_iff_of_map_toNat_eq_range' (first := 0x61) (n := 26) (by decide)] at h
  exact upperChar_of_not_lowercase (by omega)

theorem lineTokens_comment {line : List Char} (h : ¬ ['/', '/'] <:+: line ++ ['/']) (rest : List Char) :
    lineTokens (line ++ '/' :: '/' :: rest) = lineTokens line := by
  have hline : ¬ ['/', '/'] <:+: line := fun hi => h (hi.trans (List.prefix_append line ['/']).isInfix)
  rw [lineTokens, lineTokens, stripComment_append h, stripComment_of_no_comment hline, stripComment, List.append_nil]

theorem lineTokens_cons_blank {b : Char} (hb : isBlank b = true) (line : List Char) :
    lineTokens (b :: line) = lineTokens line := by
  rw [lineTokens, stripComment_cons_blank hb, tokensFrom_cons_blank hb]
  rfl

theorem lineTokens_of_isRun {run : List Char} (h : isRun run) : lineTokens run = [run.map upperChar] := by
  obtain ⟨hne, hblank, hcomment⟩ := h
  rw [lineTokens, stripComment_of_no_comment hcomment, tokensFrom_run hne hblank, List.map_singleton]

theorem lineTokens_run_blank {run : List Char} {b : Char} (h : isRun run) (hb : isBlank b = true)
    (line : List Char) : lineTokens (run ++ b :: line) = run.map upperChar :: lineTokens line := by
  obtain ⟨hne, hblank, hcomment⟩ := h
  rw [lineTokens, stripComment_append (no_comment_append_blank hcomment hb), stripComment_cons_blank hb,
    tokensFrom_run_blank hne hblank hb, List.map_cons]
  rfl

/-- What pass 0 leaves in the tokens of a line without a line feed. -/
theorem forall_mem_lineTokens {line : List Char} (h : '\n' ∉ line) :
    ∀ t ∈ lineTokens line, t ≠ [] ∧ ∀ c ∈ t, isBlank c = false ∧ c ≠ '\n' ∧ upperChar c = c := by
  have hstripped : ∀ c ∈ stripComment line, c ≠ '\n' := by
    rintro c hc rfl
    exact h (mem_of_mem_stripComment hc)
  intro t ht
  obtain ⟨u, hu, rfl⟩ := List.mem_map.mp ht
  obtain ⟨hne, hchars⟩ := forall_mem_tokensFrom (List.forall_mem_nil _) hstripped u hu
  refine ⟨by simpa using hne, List.forall_mem_map.mpr fun c hc => ?_⟩
  obtain ⟨hblank, hline⟩ := hchars c hc
  exact upperChar_keeps hblank hline

theorem forall_mem_normalise {text : List Char} {toks : List Token} (h : toks ∈ normalise text) :
    ∀ t ∈ toks, t ≠ [] ∧ ∀ c ∈ t, isBlank c = false ∧ c ≠ '\n' ∧ upperChar c = c := by
  obtain ⟨hmem, -⟩ := List.mem_filter.mp h
  obtain ⟨line, hline, rfl⟩ := List.mem_map.mp hmem
  exact forall_mem_lineTokens (no_newline_of_mem_splitLines hline)

theorem normalise_intercalate {lines : List (List Char)} (h : ∀ l ∈ lines, '\n' ∉ l) :
    normalise (['\n'].intercalate lines) = (lines.map lineTokens).filter fun toks => !toks.isEmpty := by
  by_cases hne : lines = []
  · subst hne
    rfl
  · rw [normalise, splitLines_intercalate hne h]

/-- Settles O43: lines, comment and runs are read off one character at a time, and uppercasing is a map. -/
theorem normalisedTokens : Obligations.NormalisedTokens := by
  unfold Obligations.NormalisedTokens
  exact ⟨fun _ => normalise_intercalate, fun _ rest h => lineTokens_comment h rest, rfl,
    fun _ line hb => lineTokens_cons_blank hb line, fun _ => lineTokens_of_isRun,
    fun _ _ line h hb => lineTokens_run_blank h hb line, isBlank_iff, by decide,
    fun _ => upperChar_of_not_mem_lowercase,
    fun _ _ h => ⟨ne_nil_of_mem_normalise h, forall_mem_normalise h⟩⟩

end Sys2Proof.Machine
end
